-- ==== Sys2Proof/Word.lean ====
section
/-! DEFINITION. The words of the Fambrio 4T16: bytes, the wider words of its registers, and the numbers that name a port, a
track and a store slot (00_scope 4.3). -/

namespace Sys2Proof

/-- One character's data bits, one byte of a frame (R137, R172). -/
abbrev Byte := BitVec 8
/-- A 16-bit word: details, tags, masks, link counters, sequence numbers. -/
abbrev Word16 := BitVec 16
/-- A 24-bit word: the detail, position and extra fields of an event record (R132). -/
abbrev Word24 := BitVec 24
/-- A 32-bit word: the time base, the turns count, generations. -/
abbrev Word32 := BitVec 32

/-- The ports P0 to P3. -/
abbrev Port := Fin 4
/-- The tracks T0 to T15. -/
abbrev TrackNo := Fin 16
/-- The store slots 0 to 3. -/
abbrev SlotNo := Fin 4

/-- A set of encoder lines or of their receivers, any of A, B and INDEX. -/
structure LineSet where
  a : Bool
  b : Bool
  index : Bool
deriving DecidableEq, Repr

end Sys2Proof
end

