-- ==== Sys2Proof/Syntax.lean ====
section
/-! DEFINITION. The commands of the Fambrio 4T16: one constructor per row of spec/opcode_table.json, in the table's order.

A request row is a request frame (R172) that a master sends at port `p`: its seq, and its payload bytes; the code is the row's
own and the length and check value follow from the bytes. A line row carries the characters that arrive. A decoder row is one
sample of the three line receivers (R3). A row that a deadline or a completion causes carries only what the outside decides. -/

namespace Sys2Proof

inductive Instr where
  -- requests: a frame with this row's code arrives at port p
  | identify (p : Port) (seq : Byte) (payload : List Byte)
  | openPort (p : Port) (seq : Byte) (payload : List Byte)
  | closePort (p : Port) (seq : Byte) (payload : List Byte)
  | readStatus (p : Port) (seq : Byte) (payload : List Byte)
  | clearFault (p : Port) (seq : Byte) (payload : List Byte)
  | restart (p : Port) (seq : Byte) (payload : List Byte)
  | claimAxis (p : Port) (seq : Byte) (payload : List Byte)
  | releaseAxis (p : Port) (seq : Byte) (payload : List Byte)
  | preset (p : Port) (seq : Byte) (payload : List Byte)
  | cancelPreset (p : Port) (seq : Byte) (payload : List Byte)
  | setAxis (p : Port) (seq : Byte) (payload : List Byte)
  | readAxis (p : Port) (seq : Byte) (payload : List Byte)
  | clearAxisFault (p : Port) (seq : Byte) (payload : List Byte)
  | claimTracks (p : Port) (seq : Byte) (payload : List Byte)
  | releaseTracks (p : Port) (seq : Byte) (payload : List Byte)
  | setTrack (p : Port) (seq : Byte) (payload : List Byte)
  | readTracks (p : Port) (seq : Byte) (payload : List Byte)
  | openEdit (p : Port) (seq : Byte) (payload : List Byte)
  | writeWindows (p : Port) (seq : Byte) (payload : List Byte)
  | readWindows (p : Port) (seq : Byte) (payload : List Byte)
  | commit (p : Port) (seq : Byte) (payload : List Byte)
  | abortEdit (p : Port) (seq : Byte) (payload : List Byte)
  | storeSlot (p : Port) (seq : Byte) (payload : List Byte)
  | eraseSlot (p : Port) (seq : Byte) (payload : List Byte)
  | loadSlot (p : Port) (seq : Byte) (payload : List Byte)
  | readSlot (p : Port) (seq : Byte) (payload : List Byte)
  | subscribe (p : Port) (seq : Byte) (payload : List Byte)
  | fetchEvents (p : Port) (seq : Byte) (payload : List Byte)
  -- valid frames named for what admission finds
  | unknownRequest (p : Port) (seq code : Byte) (payload : List Byte)
  | replay (p : Port) (seq code : Byte) (payload : List Byte)
  -- events of a serial line
  /-- A complete frame arrives whose two check bytes are `check`. -/
  | checkError (p : Port) (seq code : Byte) (payload : List Byte) (check : Word16)
  /-- The first four characters of a frame arrive, the length byte being `length`. -/
  | frameError (p : Port) (seq code length : Byte)
  /-- The characters arrive, then a silence of more than 3 character times. -/
  | gapLimitExceeded (p : Port) (chars : List Byte)
  /-- The characters arrive, then one whose stop bit reads 0. -/
  | characterFault (p : Port) (chars : List Byte)
  /-- The character 0xD1 arrives. -/
  | overrun (p : Port)
  /-- The receive line has been at 0 for 2 ms. -/
  | lineBreak (p : Port)
  /-- The last stop bit of the response has been sent. -/
  | responseComplete (p : Port)
  | supervisionExpiry (p : Port)
  -- resets and the power-up load
  | restartDeviceReset
  | resetInput
  /-- RESET is released (or RESTART's device reset has taken effect) with the straps BAUD1, BAUD0 as given. -/
  | powerUpLoad (straps : BitVec 2)
  | powerUpLoadEnd
  -- the encoder
  /-- A decoder sample finds A, B and INDEX at these levels. -/
  | countArrival (a b index : Bool)
  /-- A decoder sample finds A, B and INDEX at these levels. -/
  | countError (a b index : Bool)
  /-- A decoder sample finds A, B and INDEX at these levels; its index edge is taken first. -/
  | indexEdge (a b index : Bool)
  /-- The receivers of these lines report in fault. -/
  | receiverFault (lines : LineSet)
  /-- The receivers of these lines report healthy. -/
  | receiverHealthy (lines : LineSet)
  | signalRestored
  | periodEnd
  | commitTimeout
  -- the store
  /-- The store in flight finishes; `cellsHold`: the cells read back what was written. -/
  | storeCompletion (cellsHold : Bool)
  | eraseCompletion
  /-- The OE input is at this level. -/
  | oeChange (level : Bool)
  /-- A decoder sample finds A, B and INDEX at these levels. -/
  | decoderSampleWithoutCount (a b index : Bool)
  /-- The characters arrive that end the overrun frame. -/
  | overrunFrameEnd (p : Port) (chars : List Byte)
  | lossOfPower
deriving DecidableEq, Repr

end Sys2Proof
end

