-- ==== Sys2Proof/Config.lean ====
section
/-! DEFINITION. What the specification leaves open and the part decides: free values. None has a body, so nothing can be
proved from a particular value of one. -/

namespace Sys2Proof

/-- FREE VALUE (log 7). A count arrival meets an AT_POSITION commit: is its MOTION re-evaluation taken before the swap?
"either may be taken first" (R91). Applied to `State.choices`. -/
opaque Config.motionFirst : Nat → Bool

/-- FREE VALUE (log 8). In which of the six orders the three receivers of a period end act: "the receivers need no order
among themselves" (R29; R73, R93). Applied to `State.choices`. -/
opaque Config.periodOrder : Nat → Fin 6

/-- FREE VALUE (log 9). An index edge raises INDEX_DRIFT and meets an AT_INDEX commit: is the REFERENCE re-evaluation taken
before the swap? "are taken in either order" (R92). Applied to `State.choices`. -/
opaque Config.referenceFirst : Nat → Bool

/-- FREE VALUE (log 10). The revision of the part less one: "The revision (1 byte) counts from 1" (R174). -/
opaque Config.revisionLessOne : Fin 255

/-- FREE VALUE (log 11). The slot byte of READ-STATUS while the store is IDLE, which R175 does not give. Applied to
`State.choices`. -/
opaque Config.idleStoreSlotByte : Nat → Byte

/-- FREE VALUE (log 11). The generation of READ-STATUS while there is no boot record, which R175 does not give. Applied to
`State.choices`. -/
opaque Config.noBootGeneration : Nat → Word32

end Sys2Proof
end

