-- ==== Sys2Proof/Machine/Table.lean ====
section
/-! DEFINITION. Tables of a fixed number of like records (the sixteen tracks, the four ports, the four slots). Reading and writing
a table are irreducible: proofs go by the laws of Sys2Proof/Laws/Table.lean. -/

namespace Sys2Proof

/-- `n` records of one kind, numbered from 0. -/
abbrev Table (n : Nat) (α : Type) := Vector α n

variable {n : Nat} {α β : Type}

/-- Record `i` of a table. -/
@[irreducible] def Table.look (t : Table n α) (i : Fin n) : α := t[i]

/-- The table with record `i` replaced. -/
@[irreducible] def Table.put (t : Table n α) (i : Fin n) (x : α) : Table n α := t.set i x

/-- The table whose record `i` is `f i`. -/
@[irreducible] def Table.build (f : Fin n → α) : Table n α := Vector.ofFn f

/-- The records' numbers in ascending order. -/
def Table.numbers (n : Nat) : List (Fin n) := List.finRange n

end Sys2Proof
end

