-- ==== Sys2Proof/Machine/State.lean ====
section
/-! DEFINITION. The state of the Fambrio 4T16 as plain data, and the state right after reset.

One structure per block of 00_scope 2.1, fields in the order of the block's own state table. Ranges that a table gives are
Nat or BitVec as the value is counted or seen as a word. -/

namespace Sys2Proof.Machine

/-! ## Names -/

/-- Table 1-1: input mode. -/
inductive InputMode | pulseDir | upDown | quadX1 | quadX2 | quadX4
deriving DecidableEq, Repr

/-- Direction of a count arrival, after invert (R7). -/
inductive Dir | up | down
deriving DecidableEq, Repr

/-- Table 1-1: reference state. -/
inductive RefState | unreferenced | referenced | faulted
deriving DecidableEq, Repr

/-- R16: the mode of a PRESET. -/
inductive PresetMode | now | atIndex
deriving DecidableEq, Repr

/-- The four axis fault kinds (2.3). -/
inductive FaultKind | countError | signalLost | overspeed | indexDrift
deriving DecidableEq, Repr

/-- R66: the effective modes. -/
inductive Mode | cam | on | off | hold
deriving DecidableEq, Repr

/-- R66: the orphan actions; ON is not among them. -/
inductive Orphan | cam | off | hold
deriving DecidableEq, Repr

/-- Table 4-3: the causes of a re-evaluation. -/
inductive EdgeCause | motion | preset | swap | mode | owner | reference
deriving DecidableEq, Repr

/-- Table 5-1: the swap conditions of a pending commit. -/
inductive Condition | atPosition | atIndex | atRest
deriving DecidableEq, Repr

/-- Table 5-1: the count directions that an AT_POSITION swap accepts. -/
inductive SwapDir | up | down | either
deriving DecidableEq, Repr

/-- Table 8-1: port state. -/
inductive PortState | closed | opened | expired
deriving DecidableEq, Repr

/-- Table 8-1: end cause. -/
inductive EndCause | none | closedByRequest | lineBreak | expiry | deviceReset
deriving DecidableEq, Repr

/-- Table 9-2: the statuses. -/
inductive Status
  | ok | pending | notOpen | unknownRequest | length | range | notOwner | owned | locked | noSession | state
  | invalidWindows | poolFull | inUse | storeBusy | slotState | mismatch | stale
deriving DecidableEq, Repr

/-- Table 3-2: the reasons of the validity check. -/
inductive Reason | tooMany | edgeRange | zeroWidth | wrapNotLast | order | overlap
deriving DecidableEq, Repr

/-- Table 7-2: the event kinds. -/
inductive EventKind
  | edge | presetDone | presetWithdrawn | referenceChanged | axisFault | signalRestored | swapDone | commitWithdrawn
  | ownerChanged | outputsEnabled | outputsDisabled | storeDone | storeFailed | eraseDone
deriving DecidableEq, Repr

/-- R126: the subscription classes. -/
inductive EventClass | axis | program | ownership | outputs | store
deriving DecidableEq, Repr

/-- Table 10-2: the requests. -/
inductive Request
  | identify | openPort | closePort | readStatus | clearFault | restart
  | claimAxis | releaseAxis | preset | cancelPreset | setAxis | readAxis | clearAxisFault
  | claimTracks | releaseTracks | setTrack | readTracks
  | openEdit | writeWindows | readWindows | commit | abortEdit
  | storeSlot | eraseSlot | loadSlot | readSlot
  | subscribe | fetchEvents
deriving DecidableEq, Repr

/-! ## Position counter (01) -/

/-- R18: an armed preset. -/
structure Armed where
  value : Nat
  port : Port
deriving DecidableEq, Repr

/-- Table 1-1. -/
structure Counter where
  p : Nat
  turns : Word32
  modulus : Nat
  inputMode : InputMode
  invert : Bool
  lastDir : Dir
  ref : RefState
  armed : Option Armed
  r : Option Nat
  claim : Option Port
  /-- Decoder line state: the levels last sampled (R3). -/
  lineA : Bool
  lineB : Bool
  lineIndex : Bool
  /-- The next sample sets the line state and gives no count (R2, R23). -/
  resyncCount : Bool
  /-- The next sample sets the line state and gives no index edge (R2). -/
  resyncIndex : Bool
deriving DecidableEq, Repr

/-! ## Speed estimator and axis monitor (02) -/

/-- R38: the first fault and the seen set (bit n as Table 10-1 numbers the kinds). -/
structure FaultRecord where
  kind : FaultKind
  time : Word32
  p : Nat
  turns : Word32
  seen : BitVec 4
deriving DecidableEq, Repr

/-- Table 2-1. -/
structure Monitor where
  samplePeriod : Nat
  /-- The length in ms of the period in progress: a new sample period acts from the next one (R24). -/
  periodLength : Nat
  periodStart : Word32
  periodCount : Int
  lossTouched : Bool
  speed : Int
  rest : Bool
  overspeedLimit : Nat
  overspeed : Bool
  driftTolerance : Nat
  /-- Receiver status: the receivers that report in fault. -/
  inFault : LineSet
  signalLoss : Bool
  /-- The restore hold: idle, or running from this time (R34). -/
  restoreHold : Option Word32
  faultRecord : Option FaultRecord
deriving DecidableEq, Repr

/-! ## Banks (03) and the edit unit (05) -/

/-- R41: a window. -/
structure Window where
  on : Nat
  off : Nat
deriving DecidableEq, Repr

/-- R47: a bank. -/
structure Bank where
  lists : Table 16 (List Window)
  tag : Word16
deriving DecidableEq, Repr

/-- R89: a pending commit. -/
structure PendingCommit where
  condition : Condition
  position : Nat
  direction : SwapDir
  /-- ms; 0 is none. -/
  timeout : Nat
  accepted : Word32
  deadline : Option Word32
  tag : Word16
deriving DecidableEq, Repr

/-- Table 5-1: the session record; its state is COMMIT_PENDING exactly while `pending` is present. -/
structure EditSession where
  holder : Port
  shadow : Bank
  pending : Option PendingCommit
deriving DecidableEq, Repr

/-! ## Track unit (04) -/

/-- R60: the owner of a track and the owned mode, which is present exactly while the track is owned. -/
structure Owner where
  port : Port
  mode : Mode
deriving DecidableEq, Repr

/-- Table 4-1. -/
structure Track where
  owner : Option Owner
  orphan : Orphan
  lead : Nat
  shift : Int
  runUnref : Bool
  held : Bool
  level : Bool
  pin : Bool
deriving DecidableEq, Repr

/-! ## Program store (06) -/

/-- Table 6-2: the settings of one track in an image. -/
structure TrackSetting where
  orphan : Orphan
  lead : Nat
  runUnref : Bool
deriving DecidableEq, Repr

/-- Table 6-2: the contents of a slot image, less its check value. -/
structure Image where
  generation : Word32
  boot : Bool
  tag : Word16
  modulus : Nat
  inputMode : InputMode
  invert : Bool
  samplePeriod : Nat
  overspeedLimit : Nat
  driftTolerance : Nat
  settings : Table 16 TrackSetting
  lists : Table 16 (List Window)
deriving DecidableEq, Repr

/-- What a DAMAGED slot reads: an interrupted write or erase, "neither the old image nor the new one" (R113), or an image,
whose stored check value agrees or not (R103; log 16). -/
inductive Contents
  | torn
  | image (img : Image) (checkAgrees : Bool)
deriving DecidableEq, Repr

/-- R102: a slot in one of its five states, with the contents that state keeps. -/
inductive Slot
  | empty
  | valid (img : Image)
  | damaged (contents : Contents)
  | writing (img : Image)
  | erasing
deriving DecidableEq, Repr

/-- Table 6-1: the kinds of store operation. -/
inductive StoreKind | store | erase
deriving DecidableEq, Repr

/-- Table 6-1: the store operation while BUSY. -/
structure StoreOp where
  kind : StoreKind
  slot : SlotNo
  requester : Option Port
deriving DecidableEq, Repr

/-- Table 6-1: the boot record. -/
structure BootRecord where
  slot : SlotNo
  generation : Word32
deriving DecidableEq, Repr

/-- Table 6-1; `op` is none while IDLE. -/
structure Store where
  slots : Table 4 Slot
  op : Option StoreOp
  boot : Option BootRecord
deriving DecidableEq, Repr

/-! ## Event unit (07) -/

/-- R132: an event record. -/
structure Record where
  seq : Word16
  kind : EventKind
  subject : Byte
  detail : Word24
  time : Word32
  position : Word24
  extra : Word24
deriving DecidableEq, Repr

/-- Table 7-1, for one port. -/
structure Mailbox where
  queue : List Record
  nextSeq : Word16
  lost : Word16
  trackMask : Word16
  classes : BitVec 5
deriving DecidableEq, Repr

/-! ## Port units (08) -/

/-- R173: a response as composed, less the check value, which follows from the bytes. -/
structure Response where
  seq : Byte
  code : Byte
  status : Status
  detail : Word16
  flags : Byte
  payload : List Byte
deriving DecidableEq, Repr

/-- R146: the retry cache. -/
structure Cache where
  seq : Byte
  code : Byte
  check : Word16
  response : Response
deriving DecidableEq, Repr

/-- R162: the first-refusal record. -/
structure Refused where
  status : Status
  code : Byte
  detail : Word16
  seq : Byte
  time : Word32
deriving DecidableEq, Repr

/-- Table 8-1: receiver phase, with the characters taken after the delimiter. -/
inductive Phase
  | hunting
  | receiving (chars : List Byte)
  | skipping (chars : List Byte)
deriving DecidableEq, Repr

/-- Whether the receive line is in the low period of a character fault, and whether that period's break has been taken
(R138, R143; log 15). It follows the line also while the port does not receive (R117; log 12). -/
inductive RxLine | high | lowFault | lowBreak
deriving DecidableEq, Repr

/-- Table 8-1. -/
structure PortRec where
  state : PortState
  supervision : Nat
  timer : Option Word32
  tag : Word16
  endCause : EndCause
  cache : Option Cache
  checkErrors : Word16
  frameErrors : Word16
  overruns : Word16
  replays : Word16
  refusal : Option Refused
  refusals : Word16
  phase : Phase
  line : RxLine
  /-- The transmitter: IDLE, or SENDING this response. -/
  tx : Option Response
deriving DecidableEq, Repr

/-! ## The whole part -/

/-- Where the part stands between device reset and service (R2, R114, R116, R155). -/
inductive Lifecycle
  /-- Device reset has taken effect and the power-up load has not begun. -/
  | inReset
  /-- The power-up load has read the slots and has not ended. -/
  | loading
  | running
  /-- A RESTART of this port has been admitted; its response is being sent. -/
  | restarting (p : Port)
deriving DecidableEq, Repr

/-- The state of the part. `choices` is the model's own (log 7), `pending` the queue of commands that wait. -/
structure State where
  lifecycle : Lifecycle
  time : Word32
  lineRate : BitVec 2
  counter : Counter
  monitor : Monitor
  active : Bank
  session : Option EditSession
  tracks : Table 16 Track
  oe : Bool
  store : Store
  mail : Table 4 Mailbox
  ports : Table 4 PortRec
  choices : Nat
  pending : List Instr
deriving DecidableEq, Repr

/-- The part never stops: the specification names no behaviour that stops it, so there is no fault to raise. Safe: a closed
inductive with no constructor. -/
inductive Fault
deriving DecidableEq, Repr

/-- Why a command has no meaning. -/
inductive Refusal
  /-- Raised by an arm of `exec` whose command has no meaning yet, by its mnemonic. Safe. -/
  | notModelled (mnemonic : String)
deriving DecidableEq, Repr

/-! ## Reset -/

/-- Table 1-1, Default column. -/
def Counter.reset : Counter :=
  { p := 0, turns := 0, modulus := 4096, inputMode := .quadX4, invert := false, lastDir := .up, ref := .unreferenced,
    armed := none, r := none, claim := none, lineA := false, lineB := false, lineIndex := false, resyncCount := true,
    resyncIndex := true }

/-- Table 2-1, Default column. -/
def Monitor.reset : Monitor :=
  { samplePeriod := 10, periodLength := 10, periodStart := 0, periodCount := 0, lossTouched := false, speed := 0, rest := true,
    overspeedLimit := 0, overspeed := false, driftTolerance := 0, inFault := ⟨false, false, false⟩, signalLoss := false,
    restoreHold := none, faultRecord := none }

/-- R49: sixteen empty lists and tag 0. -/
def Bank.empty : Bank := { lists := Vector.replicate 16 [], tag := 0 }

/-- Table 4-1, Default column. -/
def Track.reset : Track :=
  { owner := none, orphan := .off, lead := 0, shift := 0, runUnref := false, held := false, level := false, pin := false }

/-- The store as first powered: Table 6-1 gives no contents (log 1). -/
def Store.reset : Store := { slots := Vector.replicate 4 .empty, op := none, boot := none }

/-- Table 7-1, Default column. -/
def Mailbox.reset : Mailbox := { queue := [], nextSeq := 0, lost := 0, trackMask := 0, classes := 0 }

/-- Table 8-1, Default column. -/
def PortRec.reset : PortRec :=
  { state := .closed, supervision := 0, timer := none, tag := 0, endCause := .deviceReset, cache := none, checkErrors := 0,
    frameErrors := 0, overruns := 0, replays := 0, refusal := none, refusals := 0, phase := .hunting, line := .high, tx := none }

/-- The part right after device reset, before the power-up load. -/
def State.reset : State :=
  { lifecycle := .inReset, time := 0, lineRate := 0, counter := Counter.reset, monitor := Monitor.reset, active := Bank.empty,
    session := none, tracks := Vector.replicate 16 Track.reset, oe := false, store := Store.reset,
    mail := Vector.replicate 4 Mailbox.reset, ports := Vector.replicate 4 PortRec.reset, choices := 0, pending := [] }

end Sys2Proof.Machine
end

