-- ==== Sys2Proof/Machine/Formats.lean ====
section
/-! DEFINITION. Bytes, codes and the check value (10_frame_and_record_formats), and the bits of a character (08, 8.2): what leaves
the part on a transmit line, and the frame a master sends. -/

namespace Sys2Proof.Machine

/-! ## Fields, most significant byte first (R170) -/

def byteOf (n : Nat) : Byte := BitVec.ofNat 8 n

def be16 (w : Word16) : List Byte := [w.extractLsb' 8 8, w.extractLsb' 0 8]

def be24 (w : Word24) : List Byte := [w.extractLsb' 16 8, w.extractLsb' 8 8, w.extractLsb' 0 8]

def be32 (w : Word32) : List Byte :=
  [w.extractLsb' 24 8, w.extractLsb' 16 8, w.extractLsb' 8 8, w.extractLsb' 0 8]

def be16Nat (n : Nat) : List Byte := be16 (BitVec.ofNat 16 n)
def be24Nat (n : Nat) : List Byte := be24 (BitVec.ofNat 24 n)
def be32Nat (n : Nat) : List Byte := be32 (BitVec.ofNat 32 n)

/-- A flag byte: 1 for on, set or held. -/
def boolByte (b : Bool) : Byte := if b then 1 else 0

/-- A port number in a byte, 0xFF for none (R170). -/
def portByte : Option Port → Byte
  | none => 0xFF
  | some p => byteOf p.val

/-- A port number in a detail, 0xFFFF for none (Table 9-2). -/
def portWord : Option Port → Word16
  | none => 0xFFFF
  | some p => BitVec.ofNat 16 p.val

/-- Two values in one byte: the first in the high half, the port in the low half (R178). -/
def halves (high : Byte) (p : Port) : Byte := (high <<< 4) ||| byteOf p.val

/-! ## The check value (R171) -/

/-- One bit of the CRC-16 with polynomial 0x1021, most significant bit first. -/
def crcBit (r : Word16) : Word16 := if r.msb then (r <<< 1) ^^^ 0x1021 else r <<< 1

def crcByte (r : Word16) (b : Byte) : Word16 := Nat.repeat crcBit 8 (r ^^^ (b.setWidth 16 <<< 8))

def crc (bytes : List Byte) : Word16 := bytes.foldl crcByte 0xFFFF

/-! ## Choice codes (Table 10-1) -/

def InputMode.code : InputMode → Byte
  | .pulseDir => 0 | .upDown => 1 | .quadX1 => 2 | .quadX2 => 3 | .quadX4 => 4

def Dir.code : Dir → Byte
  | .up => 0 | .down => 1

def PresetMode.code : PresetMode → Byte
  | .now => 0 | .atIndex => 1

def Mode.code : Mode → Byte
  | .cam => 0 | .on => 1 | .off => 2 | .hold => 3

def Orphan.code : Orphan → Byte
  | .cam => 0 | .off => 2 | .hold => 3

def Condition.code : Condition → Byte
  | .atPosition => 1 | .atIndex => 2 | .atRest => 3

def SwapDir.code : SwapDir → Byte
  | .up => 0 | .down => 1 | .either => 2

def FaultKind.code : FaultKind → Byte
  | .countError => 1 | .signalLost => 2 | .overspeed => 3 | .indexDrift => 4

/-- The kind's bit in the fault seen set. -/
def FaultKind.seenBit : FaultKind → BitVec 4
  | .countError => 1 | .signalLost => 2 | .overspeed => 4 | .indexDrift => 8

/-- The receiver set in the low byte of a detail. -/
def lineCode (l : LineSet) : Byte :=
  (if l.a then 1 else 0) ||| (if l.b then 2 else 0) ||| (if l.index then 4 else 0)

def RefState.code : RefState → Byte
  | .unreferenced => 0 | .referenced => 1 | .faulted => 2

def PortState.code : PortState → Byte
  | .closed => 0 | .opened => 1 | .expired => 2

def EndCause.code : EndCause → Byte
  | .none => 0 | .closedByRequest => 1 | .lineBreak => 2 | .expiry => 3 | .deviceReset => 4

def Slot.code : Slot → Byte
  | .empty => 0 | .valid _ => 1 | .damaged _ => 2 | .writing _ => 3 | .erasing => 4

def StoreKind.code : StoreKind → Byte
  | .store => 1 | .erase => 2

def Reason.code : Reason → Byte
  | .tooMany => 1 | .edgeRange => 2 | .zeroWidth => 3 | .wrapNotLast => 4 | .order => 5 | .overlap => 6

def EdgeCause.code : EdgeCause → Byte
  | .motion => 0 | .preset => 1 | .swap => 2 | .mode => 3 | .owner => 4 | .reference => 5

/-- Table 10-3. -/
def Status.code : Status → Byte
  | .ok => 0 | .pending => 1 | .notOpen => 2 | .unknownRequest => 3 | .length => 4 | .range => 5 | .notOwner => 6
  | .owned => 7 | .locked => 8 | .noSession => 9 | .state => 10 | .invalidWindows => 11 | .poolFull => 12 | .inUse => 13
  | .storeBusy => 14 | .slotState => 15 | .mismatch => 16 | .stale => 17

/-- Table 10-5. -/
def EventKind.code : EventKind → Byte
  | .edge => 1 | .presetDone => 2 | .presetWithdrawn => 3 | .referenceChanged => 4 | .axisFault => 5 | .signalRestored => 6
  | .swapDone => 7 | .commitWithdrawn => 8 | .ownerChanged => 9 | .outputsEnabled => 10 | .outputsDisabled => 11
  | .storeDone => 12 | .storeFailed => 13 | .eraseDone => 14

/-! ## Requests (Table 10-2) -/

def Request.code : Request → Byte
  | .identify => 0x01 | .openPort => 0x02 | .closePort => 0x03 | .readStatus => 0x04 | .clearFault => 0x05
  | .restart => 0x06
  | .claimAxis => 0x10 | .releaseAxis => 0x11 | .preset => 0x12 | .cancelPreset => 0x13 | .setAxis => 0x14
  | .readAxis => 0x15 | .clearAxisFault => 0x16
  | .claimTracks => 0x20 | .releaseTracks => 0x21 | .setTrack => 0x22 | .readTracks => 0x23
  | .openEdit => 0x30 | .writeWindows => 0x31 | .readWindows => 0x32 | .commit => 0x33 | .abortEdit => 0x34
  | .storeSlot => 0x40 | .eraseSlot => 0x41 | .loadSlot => 0x42 | .readSlot => 0x43
  | .subscribe => 0x50 | .fetchEvents => 0x51

def Request.all : List Request :=
  [.identify, .openPort, .closePort, .readStatus, .clearFault, .restart,
   .claimAxis, .releaseAxis, .preset, .cancelPreset, .setAxis, .readAxis, .clearAxisFault,
   .claimTracks, .releaseTracks, .setTrack, .readTracks,
   .openEdit, .writeWindows, .readWindows, .commit, .abortEdit,
   .storeSlot, .eraseSlot, .loadSlot, .readSlot, .subscribe, .fetchEvents]

/-- The request a code names, if any (R159). -/
def Request.ofCode (c : Byte) : Option Request := Request.all.find? fun r => r.code == c

/-- The one payload length of a request; none for WRITE-WINDOWS. -/
def Request.fixedLength : Request → Option Nat
  | .identify | .closePort | .restart | .claimAxis | .releaseAxis | .cancelPreset | .readAxis | .readTracks => some 0
  | .readStatus | .clearFault | .clearAxisFault | .openEdit | .abortEdit | .eraseSlot | .loadSlot | .readSlot
  | .fetchEvents => some 1
  | .claimTracks | .releaseTracks | .readWindows | .storeSlot => some 2
  | .subscribe => some 3
  | .openPort | .preset => some 4
  | .setTrack => some 6
  | .commit => some 9
  | .setAxis => some 12
  | .writeWindows => none

/-- R159, R172: is `n` a payload length of the request? WRITE-WINDOWS takes 1 + 6·k bytes with k from 0 to 12. -/
def Request.lengthOk (r : Request) (n : Nat) : Bool :=
  match r.fixedLength with
  | some k => n == k
  | none => n % 6 == 1 && n ≤ 73

/-- R159: the detail of LENGTH. -/
def Request.lengthDetail (r : Request) : Word16 :=
  match r.fixedLength with
  | some k => BitVec.ofNat 16 k
  | none => 0xFFFF

/-! ## Characters on a line (R137, R138) -/

/-- A character as a line carries it: its data bits, and the level at which its stop bit stands. -/
structure LineCharacter where
  data : Byte
  stop : Bool
deriving DecidableEq, Repr

/-- R137: one start bit at 0, eight data bits, least significant first, one stop bit, no parity bit: ten bit times. -/
def LineCharacter.bits (c : LineCharacter) : List Bool :=
  false :: ((List.range 8).map c.data.getLsbD ++ [c.stop])

/-- The bits of characters sent one after the other, each with its stop bit at 1. -/
def lineBits (chars : List Byte) : List Bool := chars.flatMap fun b => LineCharacter.bits { data := b, stop := true }

/-- Where a reader of the line stands: it looks for a start bit, it has read that bit and these data bits, or it waits for the
line to return to 1 after a stop bit at 0 (R138). -/
inductive LineReader
  | idle
  | inside (data : List Bool)
  | low
deriving DecidableEq, Repr

/-- The byte that has these bits, least significant first. -/
def byteOfBits (data : List Bool) : Byte := byteOf (data.foldr (fun bit n => 2 * n + bit.toNat) 0)

/-- The characters that a line carries, bit time by bit time, to a reader that stands so (R137, R138). An idle line is at 1. -/
def readBits : LineReader → List Bool → List LineCharacter
  | _, [] => []
  | .idle, true :: rest => readBits .idle rest
  | .idle, false :: rest => readBits (.inside []) rest
  | .inside data, bit :: rest =>
    if data.length < 8 then readBits (.inside (data ++ [bit])) rest
    else { data := byteOfBits data, stop := bit } :: readBits (if bit then .idle else .low) rest
  | .low, true :: rest => readBits .idle rest
  | .low, false :: rest => readBits .low rest

/-- The characters of a line that was idle before. -/
def readLine (bits : List Bool) : List LineCharacter := readBits .idle bits

/-- Table 8-2: the line rate in bits per second that the straps BAUD1 and BAUD0 select. -/
def bitRate (straps : BitVec 2) : Nat :=
  match straps.toNat with
  | 0 => 115200
  | 1 => 460800
  | 2 => 1000000
  | _ => 3000000

/-- R137: the one line rate of the four ports, as the straps were read at the last power-up load. -/
def State.bitRate (s : State) : Nat := Machine.bitRate s.lineRate

/-! ## Frames -/

/-- The check value of a request frame, over seq, code, length and payload (R171). -/
def requestCheck (seq code : Byte) (payload : List Byte) : Word16 :=
  crc (seq :: code :: byteOf payload.length :: payload)

/-- The characters of a request frame with the check value `check` (R172). -/
def frameChars (seq code : Byte) (payload : List Byte) (check : Word16) : List Byte :=
  0xD1 :: seq :: code :: byteOf payload.length :: (payload ++ be16 check)

/-- The characters of the frame that carries a request: its check value is its own. -/
def requestChars (seq code : Byte) (payload : List Byte) : List Byte :=
  frameChars seq code payload (requestCheck seq code payload)

/-- The bytes of a response between the delimiter and the check value (R173). -/
def Response.covered (r : Response) : List Byte :=
  r.seq :: r.code :: r.status.code :: (be16 r.detail ++ (r.flags :: byteOf r.payload.length :: r.payload))

/-- The characters the transmitter sends for a response (R144, R173). -/
def Response.chars (r : Response) : List Byte := 0xD2 :: (r.covered ++ be16 (crc r.covered))

/-- The 17 bytes of an event record (R178). -/
def Record.bytes (r : Record) : List Byte :=
  be16 r.seq ++ [r.kind.code, r.subject] ++ be24 r.detail ++ be32 r.time ++ be24 r.position ++ be24 r.extra

/-- Each window in 6 bytes, list order (R172, R173). -/
def windowBytes (ws : List Window) : List Byte := ws.flatMap fun w => be24Nat w.on ++ be24Nat w.off

end Sys2Proof.Machine
end

