-- ==== Sys2Proof/Machine/Operands.lean ====
section
/-! DEFINITION. The operand forms of the requests: the fields of a payload (R170, R172) and the choices their codes name
(Table 10-1). A field past the payload's end reads 0; admission judges the length before any field is read (R157). -/

namespace Sys2Proof.Machine

/-! ## Fields by their offset in the payload -/

def u8 (payload : List Byte) (i : Nat) : Nat := (payload.getD i 0).toNat
def u16 (payload : List Byte) (i : Nat) : Nat := u8 payload i * 256 + u8 payload (i + 1)
def u24 (payload : List Byte) (i : Nat) : Nat := u16 payload i * 256 + u8 payload (i + 2)
def u32 (payload : List Byte) (i : Nat) : Nat := u24 payload i * 256 + u8 payload (i + 3)

/-- A 16-bit field kept as a word: a tag or a mask. -/
def word16 (payload : List Byte) (i : Nat) : Word16 := BitVec.ofNat 16 (u16 payload i)

/-! ## Choices by their code; none is out of range (R170) -/

def boolOfCode : Nat → Option Bool
  | 0 => some false | 1 => some true | _ => none

def InputMode.ofCode : Nat → Option InputMode
  | 0 => some .pulseDir | 1 => some .upDown | 2 => some .quadX1 | 3 => some .quadX2 | 4 => some .quadX4 | _ => none

def PresetMode.ofCode : Nat → Option PresetMode
  | 0 => some .now | 1 => some .atIndex | _ => none

def Mode.ofCode : Nat → Option Mode
  | 0 => some .cam | 1 => some .on | 2 => some .off | 3 => some .hold | _ => none

/-- 1, which would be ON, is out of range (R67, Table 10-1). -/
def Orphan.ofCode : Nat → Option Orphan
  | 0 => some .cam | 2 => some .off | 3 => some .hold | _ => none

/-- A COMMIT condition: IMMEDIATE is `some none`, a deferred one `some (some _)`. -/
def conditionOfCode : Nat → Option (Option Condition)
  | 0 => some none | 1 => some (some .atPosition) | 2 => some (some .atIndex) | 3 => some (some .atRest) | _ => none

def SwapDir.ofCode : Nat → Option SwapDir
  | 0 => some .up | 1 => some .down | 2 => some .either | _ => none

def FaultKind.ofCode : Nat → Option FaultKind
  | 1 => some .countError | 2 => some .signalLost | 3 => some .overspeed | 4 => some .indexDrift | _ => none

def trackOfCode (n : Nat) : Option TrackNo := if h : n < 16 then some ⟨n, h⟩ else none

def slotOfCode (n : Nat) : Option SlotNo := if h : n < 4 then some ⟨n, h⟩ else none

/-- R164: is the code one of the sixteen refusal statuses, NOT_OPEN to STALE? -/
def isRefusalCode (n : Nat) : Bool := 2 ≤ n && n ≤ 17

/-- R149: a supervision time of 0, or 10 to 10,000 ms. -/
def supervisionOk (n : Nat) : Bool := n == 0 || (10 ≤ n && n ≤ 10000)

/-- R159: the index of the lowest parameter that is out of range, given which are in range. -/
def firstBad (inRange : List Bool) : Option Nat := inRange.findIdx? (! ·)

/-! ## Whole parameter lists -/

/-- The six parameters of SET-AXIS (R22). -/
structure AxisConfig where
  modulus : Nat
  inputMode : InputMode
  invert : Bool
  samplePeriod : Nat
  overspeedLimit : Nat
  driftTolerance : Nat
deriving DecidableEq, Repr

/-- Which parameters of a SET-AXIS payload are in range (R22). -/
def axisInRange (payload : List Byte) : List Bool :=
  [2 ≤ u32 payload 0 && u32 payload 0 ≤ 16777216,
   (InputMode.ofCode (u8 payload 4)).isSome,
   (boolOfCode (u8 payload 5)).isSome,
   1 ≤ u16 payload 6 && u16 payload 6 ≤ 1000,
   u24 payload 8 ≤ 16000000,
   u8 payload 11 ≤ 255]

/-- The values of a SET-AXIS payload that is in range. -/
def axisConfig (payload : List Byte) : AxisConfig :=
  { modulus := u32 payload 0, inputMode := (InputMode.ofCode (u8 payload 4)).getD .quadX4,
    invert := (boolOfCode (u8 payload 5)).getD false, samplePeriod := u16 payload 6, overspeedLimit := u24 payload 8,
    driftTolerance := u8 payload 11 }

/-- The four values that SET-TRACK gives a track (R67). -/
structure TrackParams where
  mode : Mode
  orphan : Orphan
  lead : Nat
  runUnref : Bool
deriving DecidableEq, Repr

/-- Which parameters of a SET-TRACK payload are in range (R67). -/
def trackInRange (payload : List Byte) : List Bool :=
  [u8 payload 0 < 16, (Mode.ofCode (u8 payload 1)).isSome, (Orphan.ofCode (u8 payload 2)).isSome,
   u16 payload 3 ≤ 20000, (boolOfCode (u8 payload 5)).isSome]

def trackParams (payload : List Byte) : TrackParams :=
  { mode := (Mode.ofCode (u8 payload 1)).getD .cam, orphan := (Orphan.ofCode (u8 payload 2)).getD .off,
    lead := u16 payload 3, runUnref := (boolOfCode (u8 payload 5)).getD false }

/-- Window `i` of a WRITE-WINDOWS payload. -/
def windowAt (payload : List Byte) (i : Nat) : Window :=
  { on := u24 payload (1 + 6 * i), off := u24 payload (4 + 6 * i) }

/-- The windows of a WRITE-WINDOWS payload; their number is taken from the length (R172). -/
def windowsOf (payload : List Byte) : List Window :=
  (List.range ((payload.length - 1) / 6)).map (windowAt payload)

/-- Which parameters of a COMMIT payload are in range, M being the modulus in force (R86). -/
def commitInRange (payload : List Byte) (m : Nat) : List Bool :=
  [true, (conditionOfCode (u8 payload 2)).isSome, u24 payload 3 < m, (SwapDir.ofCode (u8 payload 6)).isSome,
   u16 payload 7 ≤ 60000]

end Sys2Proof.Machine
end

