-- ==== Sys2Proof/Machine/Ops.lean ====
section
/-! DEFINITION. The named operations over the state: the accessors, elapsed time, the saturating counters, and the filing of
events (07). -/

namespace Sys2Proof.Machine

/-! ## One block of the state replaced -/

def State.setLifecycle (s : State) (x : Lifecycle) : State := { s with lifecycle := x }
def State.setTime (s : State) (x : Word32) : State := { s with time := x }
def State.setLineRate (s : State) (x : BitVec 2) : State := { s with lineRate := x }
def State.setCounter (s : State) (x : Counter) : State := { s with counter := x }
def State.setMonitor (s : State) (x : Monitor) : State := { s with monitor := x }
def State.setActive (s : State) (x : Bank) : State := { s with active := x }
def State.setSession (s : State) (x : Option EditSession) : State := { s with session := x }
def State.setTracks (s : State) (x : Table 16 Track) : State := { s with tracks := x }
def State.setOe (s : State) (x : Bool) : State := { s with oe := x }
def State.setStore (s : State) (x : Store) : State := { s with store := x }
def State.setMail (s : State) (x : Table 4 Mailbox) : State := { s with mail := x }
def State.setPorts (s : State) (x : Table 4 PortRec) : State := { s with ports := x }
def State.setChoices (s : State) (x : Nat) : State := { s with choices := x }

/-- A free value has been read: the counter of choices advances (log 7). -/
def State.advanceChoices (s : State) : State := s.setChoices (s.choices + 1)

/-! ## One record of a table -/

def State.port (s : State) (p : Port) : PortRec := s.ports.look p
def State.setPort (s : State) (p : Port) (x : PortRec) : State := s.setPorts (s.ports.put p x)
def State.box (s : State) (p : Port) : Mailbox := s.mail.look p
def State.setBox (s : State) (p : Port) (x : Mailbox) : State := s.setMail (s.mail.put p x)
def State.track (s : State) (t : TrackNo) : Track := s.tracks.look t
def State.setTrack (s : State) (t : TrackNo) (x : Track) : State := s.setTracks (s.tracks.put t x)
def State.slot (s : State) (i : SlotNo) : Slot := s.store.slots.look i
def State.setSlot (s : State) (i : SlotNo) (x : Slot) : State :=
  s.setStore { s.store with slots := s.store.slots.put i x }

/-! ## Plain tests -/

def State.isOpen (s : State) (p : Port) : Bool := (s.port p).state = .opened

/-- The blocks are in service: the power-up load has ended (R2, R116). -/
def State.inService (s : State) : Bool :=
  match s.lifecycle with
  | .running | .restarting _ => true
  | .inReset | .loading => false

/-- The ports receive: the load has ended (R117) and no RESTART has been admitted (R155). -/
def State.portsReceive (s : State) : Bool := s.lifecycle = .running

/-- The set names no line. -/
def noLines (l : LineSet) : Bool := ! l.a && ! l.b && ! l.index

def EditSession.isPending (e : EditSession) : Bool := e.pending.isSome

/-- Does port `p` hold the edit session? -/
def State.holdsSession (s : State) (p : Port) : Bool := s.session.any fun e => e.holder = p

/-- Is a commit pending, held by any port (R79)? -/
def State.commitPending (s : State) : Bool := s.session.any EditSession.isPending

/-- The owner's port of a track record. -/
def Track.ownerPort (t : Track) : Option Port := t.owner.map Owner.port

/-! ## Counts and elapsed time -/

/-- A 16-bit count that saturates at 65535 (R122, R145, R163). -/
def satInc (w : Word16) : Word16 := if w = 0xFFFF then w else w + 1

/-- µs passed on the time base since `start`, the wrap counted out (R26, R96, R150). -/
def State.elapsed (s : State) (start : Word32) : Nat := (s.time - start).toNat

/-! ## Events (07) -/

/-- An event as its block produces it (R119, R132): kind, subject, detail, extra, and the direct addressee if any. -/
structure Event where
  kind : EventKind
  subject : Byte
  detail : Word24
  extra : Word24
  direct : Option Port
deriving DecidableEq, Repr

/-- The subscription class of an event kind (Table 7-2); EDGE goes by track, two kinds have none. -/
def EventKind.cls : EventKind → Option EventClass
  | .presetDone | .referenceChanged | .axisFault | .signalRestored => some .axis
  | .swapDone => some .program
  | .ownerChanged => some .ownership
  | .outputsEnabled | .outputsDisabled => some .outputs
  | .storeDone | .storeFailed | .eraseDone => some .store
  | .edge | .presetWithdrawn | .commitWithdrawn => none

/-- The class's bit in the class set (Table 10-1). -/
def EventClass.bit : EventClass → Nat
  | .axis => 0 | .program => 1 | .ownership => 2 | .outputs => 3 | .store => 4

/-- Does the subscription name the event's class, or for EDGE its track (R120)? -/
def Mailbox.subscribes (m : Mailbox) (ev : Event) : Bool :=
  match ev.kind with
  | .edge => m.trackMask.getLsbD ev.subject.toNat
  | k => k.cls.any fun c => m.classes.getLsbD c.bit

/-- Is the event filed for port `q`: OPEN, and addressed directly or by subscription (R120, R121)? -/
def State.addressed (s : State) (ev : Event) (q : Port) : Bool :=
  s.isOpen q && (ev.direct = some q || (s.box q).subscribes ev)

/-- The record of an event with sequence number `n`: time and position as at production (R119). -/
def State.recordOf (s : State) (ev : Event) (n : Word16) : Record :=
  { seq := n, kind := ev.kind, subject := ev.subject, detail := ev.detail, time := s.time,
    position := BitVec.ofNat 24 s.counter.p, extra := ev.extra }

/-- R122: the event takes the next sequence number, and its record is appended or, with 32 records queued, lost. -/
def Mailbox.file (m : Mailbox) (record : Word16 → Record) : Mailbox :=
  if m.queue.length < 32 then
    { m with queue := m.queue ++ [record m.nextSeq], nextSeq := m.nextSeq + 1 }
  else { m with lost := satInc m.lost, nextSeq := m.nextSeq + 1 }

/-- A block produces an event and the event unit files it for each addressed port (R119 to R122). -/
def produce (ev : Event) (s : State) : State :=
  s.setMail (Table.build fun q =>
    if s.addressed ev q then (s.box q).file (s.recordOf ev) else s.box q)

/-- `produce` where there is an event to produce. -/
def produceIf (c : Bool) (ev : Event) (s : State) : State := if c then produce ev s else s

/-! ### The events by kind (Table 10-5) -/

/-- The low 24 bits of turns. -/
def State.turns24 (s : State) : Word24 := s.counter.turns.setWidth 24

/-- Three bytes of a detail or an extra field, from the most significant. -/
def bytes24 (a b c : Byte) : Word24 := (a ++ b ++ c : BitVec 24)

def edgeEvent (s : State) (t : TrackNo) (level : Bool) (cause : EdgeCause) : Event :=
  { kind := .edge, subject := byteOf t.val, detail := bytes24 0 cause.code (boolByte level), extra := s.turns24,
    direct := none }

def presetDoneEvent (s : State) (mode : PresetMode) (p : Port) (value : Nat) : Event :=
  { kind := .presetDone, subject := halves mode.code p, detail := BitVec.ofNat 24 value, extra := s.turns24,
    direct := some p }

/-- The causes of PRESET_WITHDRAWN: CANCEL 0, RELEASE 1, GEOMETRY 2. -/
def presetWithdrawnEvent (s : State) (cause : Byte) (a : Armed) : Event :=
  { kind := .presetWithdrawn, subject := halves cause a.port, detail := BitVec.ofNat 24 a.value, extra := s.turns24,
    direct := some a.port }

/-- The cause is a fault kind code, or 5 for GEOMETRY. -/
def referenceChangedEvent (s : State) (new : RefState) (cause : Byte) : Event :=
  { kind := .referenceChanged, subject := new.code, detail := bytes24 0 0 cause, extra := s.turns24, direct := none }

def axisFaultEvent (s : State) (kind : FaultKind) (detail : Word24) : Event :=
  { kind := .axisFault, subject := kind.code, detail := detail, extra := s.turns24, direct := none }

def signalRestoredEvent (s : State) : Event :=
  { kind := .signalRestored, subject := 0, detail := 0, extra := s.turns24, direct := none }

def swapDoneEvent (s : State) (p : Port) (tag : Word16) : Event :=
  { kind := .swapDone, subject := byteOf p.val, detail := tag.setWidth 24, extra := s.turns24, direct := some p }

/-- The causes of COMMIT_WITHDRAWN: TIMEOUT 0, WITHDRAW 1, END 2. -/
def commitWithdrawnEvent (s : State) (cause : Byte) (p : Port) (tag : Word16) : Event :=
  { kind := .commitWithdrawn, subject := byteOf p.val, detail := (cause ++ tag : BitVec 24), extra := s.turns24,
    direct := some p }

/-- The ownership causes: CLAIM 0, RELEASE 1, LAPSE 2. -/
def ownerChangedEvent (axis : Bool) (mask : Word16) (old new : Option Port) (cause : Byte) : Event :=
  { kind := .ownerChanged, subject := boolByte axis, detail := mask.setWidth 24,
    extra := bytes24 (portByte old) (portByte new) cause, direct := none }

def outputsEvent (s : State) (active : Bool) : Event :=
  { kind := if active then .outputsEnabled else .outputsDisabled, subject := 0, detail := 0, extra := s.turns24,
    direct := none }

/-- The generation is carried across detail (high 8 bits) and extra (low 24 bits) (R134). -/
def storeDoneEvent (slot : SlotNo) (generation : Word32) (requester : Option Port) : Event :=
  { kind := .storeDone, subject := byteOf slot.val, detail := (generation >>> 24).setWidth 24,
    extra := generation.setWidth 24, direct := requester }

def storeFailedEvent (s : State) (slot : SlotNo) (requester : Option Port) : Event :=
  { kind := .storeFailed, subject := byteOf slot.val, detail := 0, extra := s.turns24, direct := requester }

def eraseDoneEvent (s : State) (slot : SlotNo) (requester : Option Port) : Event :=
  { kind := .eraseDone, subject := byteOf slot.val, detail := 0, extra := s.turns24, direct := requester }

/-! ## Replies of the owning blocks (2.4) -/

/-- What follows the composition of a response (R149). -/
inductive After | nothing | thenReset | thenClosed
deriving DecidableEq, Repr

/-- What a block, or the admission step that refused, answers: the state after its effects, and the response's parts. -/
structure Reply where
  state : State
  status : Status
  detail : Word16
  payload : List Byte
  after : After
deriving DecidableEq, Repr

def replyOk (s : State) (detail : Word16 := 0) (payload : List Byte := []) : Reply :=
  { state := s, status := .ok, detail, payload, after := .nothing }

def replyPending (s : State) (detail : Word16 := 0) : Reply :=
  { state := s, status := .pending, detail, payload := [], after := .nothing }

def refuse (s : State) (status : Status) (detail : Word16 := 0) : Reply :=
  { state := s, status, detail, payload := [], after := .nothing }

/-- RANGE, with the lowest failing index (R159). -/
def refuseRange (s : State) (i : Nat) : Reply := refuse s .range (BitVec.ofNat 16 i)

/-- Is the reply a refusal: neither OK nor PENDING (R163)? -/
def Status.refuses : Status → Bool
  | .ok | .pending => false
  | _ => true

end Sys2Proof.Machine
end

