-- ==== Sys2Proof/Machine/Flags.lean ====
section
/-! DEFINITION. The eight response flags (R160, bits as R173 numbers them), each read from the block that owns its state. -/

namespace Sys2Proof.Machine

def flagEvents (s : State) (p : Port) : Bool := ! (s.box p).queue.isEmpty
def flagLost (s : State) (p : Port) : Bool := (s.box p).lost ≠ 0
def flagRefusal (s : State) (p : Port) : Bool := (s.port p).refusal.isSome
def flagAxisFault (s : State) : Bool := s.monitor.faultRecord.isSome
def flagReferenced (s : State) : Bool := s.counter.ref = .referenced
def flagSession (s : State) (p : Port) : Bool := s.holdsSession p
def flagPendingCommit (s : State) : Bool := s.commitPending
def flagStoreBusy (s : State) : Bool := s.store.op.isSome

/-- Eight flags in a byte, bit 0 first. -/
def flagByte (b0 b1 b2 b3 b4 b5 b6 b7 : Bool) : Byte :=
  BitVec.ofBoolListLE [b0, b1, b2, b3, b4, b5, b6, b7]

/-- The flags byte of a response to port `p` composed in state `s`. -/
def responseFlags (s : State) (p : Port) : Byte :=
  flagByte (flagEvents s p) (flagLost s p) (flagRefusal s p) (flagAxisFault s) (flagReferenced s) (flagSession s p)
    (flagPendingCommit s) (flagStoreBusy s)

end Sys2Proof.Machine
end

