-- ==== Sys2Proof/Machine/Windows.lean ====
section
/-! DEFINITION. Window programs (03): coverage, the validity check, equal lists, the pool, the lead shift and the evaluation
position, the inside test. -/

namespace Sys2Proof.Machine

/-! ## Windows and lists -/

/-- A wrapping window has its ON greater than its OFF (R41). -/
def Window.wraps (w : Window) : Bool := w.off < w.on

/-- Does the window cover position `e` of the ring (R41)? -/
def Window.covers (w : Window) (e : Nat) : Bool :=
  if w.on < w.off then w.on ≤ e && e < w.off
  else if w.off < w.on then w.on ≤ e || e < w.off
  else false

/-- Does some window of the list cover `e` (R51)? -/
def listCovers (ws : List Window) (e : Nat) : Bool := ws.any (Window.covers · e)

/-- R44: does window `w` fail OVERLAP, given window 0 and the window before it? -/
def overlaps (first prev w : Window) : Bool :=
  w.on < prev.off || (w.wraps && first.on < w.off)

/-- Table 3-2 from window `i` on. `lower` holds window 0 and window `i`−1 once there is one. -/
def checkFrom (m : Nat) (lower : Option (Window × Window)) (i : Nat) : List Window → Option (Reason × Nat)
  | [] => none
  | w :: rest =>
    if m ≤ w.on || m ≤ w.off then some (.edgeRange, i)
    else if w.on = w.off then some (.zeroWidth, i)
    else if w.wraps && ! rest.isEmpty then some (.wrapNotLast, i)
    else
      match lower with
      | none => checkFrom m (some (w, w)) (i + 1) rest
      | some (first, prev) =>
        if w.on ≤ prev.on then some (.order, i)
        else if overlaps first prev w then some (.overlap, i)
        else checkFrom m (some (first, w)) (i + 1) rest

/-- R43: the validity check on the ring of `m` counts: none is valid, else the reason and the window's index. -/
def checkList (m : Nat) (ws : List Window) : Option (Reason × Nat) :=
  if 12 < ws.length then some (.tooMany, 12) else checkFrom m none 0 ws

/-! ## Banks -/

def Bank.list (b : Bank) (t : TrackNo) : List Window := b.lists.look t

/-- The number of windows in sixteen lists. -/
def totalOf (lists : Table 16 (List Window)) : Nat :=
  ((Table.numbers 16).map fun t => (lists.look t).length).sum

def Bank.total (b : Bank) : Nat := totalOf b.lists

/-- Is some window edge of the bank `m` or more (R22)? -/
def Bank.reaches (b : Bank) (m : Nat) : Bool :=
  (Table.numbers 16).any fun t => (b.list t).any fun w => m ≤ w.on || m ≤ w.off

/-- The tracks whose lists differ between two banks (R46). -/
def changedTracks (shadow active : Bank) : List TrackNo :=
  (Table.numbers 16).filter fun t => shadow.list t ≠ active.list t

/-! ## Lead shift and evaluation position -/

/-- R52: shift = (v × L) / 1,000,000, truncated toward zero. -/
def leadShift (v : Int) (lead : Nat) : Int := (v * lead).tdiv 1000000

/-- R53: e = (p + shift) modulo M, from 0 to M−1 also for a negative sum. -/
def evalPosition (p : Nat) (shift : Int) (m : Nat) : Nat := ((p + shift) % (m : Int)).toNat

/-- R51: the inside test of the active bank at the track's evaluation position. -/
def State.inside (s : State) (t : TrackNo) : Bool :=
  listCovers (s.active.list t) (evalPosition s.counter.p (s.track t).shift s.counter.modulus)

end Sys2Proof.Machine
end

