-- ==== Sys2Proof/Machine/Tracks.lean ====
section
/-! DEFINITION. The track unit (04): effective mode, level evaluation, re-evaluation, shifts, release and HOLD capture,
OE and the pins. -/

namespace Sys2Proof.Machine

def Orphan.mode : Orphan → Mode
  | .cam => .cam | .off => .off | .hold => .hold

/-- R60: the owned mode while owned, the orphan action while free. -/
def Track.effective (t : Track) : Mode :=
  match t.owner with
  | some o => o.mode
  | none => t.orphan.mode

/-- Table 4-2: the level of a track. -/
def State.levelOf (s : State) (i : TrackNo) : Bool :=
  match (s.track i).effective with
  | .on => true
  | .off => false
  | .hold => (s.track i).held
  | .cam => if s.counter.ref = .referenced || (s.track i).runUnref then s.inside i else false

/-- R71 for one track: a changed level is taken, the pin follows (R76), and one EDGE is produced. -/
def evalTrack (cause : EdgeCause) (s : State) (i : TrackNo) : State :=
  if s.levelOf i = (s.track i).level then s
  else
    produce (edgeEvent s i (s.levelOf i) cause)
      (s.setTrack i { s.track i with level := s.levelOf i, pin := s.levelOf i && s.oe })

/-- R71: one re-evaluation of the named tracks, given in ascending order. Irreducible: proofs go by the laws of
Sys2Proof/Laws/Tracks.lean. -/
@[irreducible] def reevaluate (cause : EdgeCause) (tracks : List TrackNo) (s : State) : State :=
  tracks.foldl (evalTrack cause) s

/-- A re-evaluation of every track. -/
def reevaluateAll (cause : EdgeCause) (s : State) : State := reevaluate cause (Table.numbers 16) s

/-- R52: every shift recomputed from the speed in force. -/
def recomputeShifts (s : State) : State :=
  s.setTracks (Table.build fun i => { s.track i with shift := leadShift s.monitor.speed (s.track i).lead })

/-- The tracks whose shift the speed in force changes. -/
def shiftChanges (s : State) : List TrackNo :=
  (Table.numbers 16).filter fun i => leadShift s.monitor.speed (s.track i).lead ≠ (s.track i).shift

/-- The track unit's part of a period end (R29, R54): new shifts, and MOTION for the tracks whose shift changed. -/
def motionAtPeriodEnd (s : State) : State := reevaluate .motion (shiftChanges s) (recomputeShifts s)

/-! ## Ownership -/

/-- The tracks of a set, ascending. -/
def tracksWhere (f : TrackNo → Bool) : List TrackNo := (Table.numbers 16).filter f

/-- The tracks of a mask; bit n names track Tn (R170). -/
def inMask (mask : Word16) (t : TrackNo) : Bool := mask.getLsbD t.val

/-- The mask of a set of tracks. -/
def maskOf (f : TrackNo → Bool) : Word16 := BitVec.ofBoolListLE ((List.finRange 16).map f)

/-- R64, R69: a track is freed; where the effective mode enters HOLD from another mode the held level is captured. -/
def Track.freed (t : Track) : Track :=
  { t with
    owner := none
    held := if t.orphan = .hold && t.effective ≠ .hold then t.level else t.held }

/-- R64, R65: the tracks of a set become free, OWNER_CHANGED is produced with the cause (RELEASE 1, LAPSE 2), and then they are
re-evaluated with cause OWNER. -/
def freeTracks (f : TrackNo → Bool) (p : Port) (cause : Byte) (s : State) : State :=
  let freed := s.setTracks (Table.build fun i => if f i then (s.track i).freed else s.track i)
  reevaluate .owner (tracksWhere f) (produce (ownerChangedEvent false (maskOf f) (some p) none cause) freed)

/-- R62: a free track is claimed: the owned mode takes the orphan action, so the effective mode is unchanged. -/
def Track.claimed (t : Track) (p : Port) : Track :=
  match t.owner with
  | some _ => t
  | none => { t with owner := some { port := p, mode := t.orphan.mode } }

/-- R68: the four values of SET-TRACK applied together, with HOLD capture and, where the lead differs, a new shift. -/
def Track.configured (t : Track) (v : Int) (p : Port) (x : TrackParams) : Track :=
  { t with
    owner := some { port := p, mode := x.mode }
    orphan := x.orphan
    lead := x.lead
    runUnref := x.runUnref
    held := if x.mode = .hold && t.effective ≠ .hold then t.level else t.held
    shift := if x.lead = t.lead then t.shift else leadShift v x.lead }

/-! ## OE and the pins -/

/-- R76: every pin follows its level and the OE state. -/
def drivePins (s : State) : State :=
  s.setTracks (Table.build fun i => { s.track i with pin := (s.track i).level && s.oe })

/-- R59: when the load has ended every level is evaluated and every pin set, with no EDGE event. -/
def settleLevels (s : State) : State :=
  drivePins (s.setTracks (Table.build fun i => { s.track i with level := s.levelOf i }))

end Sys2Proof.Machine
end

