-- ==== Sys2Proof/Machine/Edit.lean ====
section
/-! DEFINITION. The edit unit (05): the swap, the swap conditions, and the ends of a pending commit. -/

namespace Sys2Proof.Machine

/-- The pending commit, if any. -/
def State.pendingCommit (s : State) : Option PendingCommit := s.session.bind EditSession.pending

/-- R95: the active bank takes the shadow's lists and the commit's tag, the session ends, SWAP_DONE is produced and every track
is re-evaluated with cause SWAP. -/
def swapWith (e : EditSession) (tag : Word16) (s : State) : State :=
  let swapped := (s.setActive { lists := e.shadow.lists, tag := tag }).setSession none
  reevaluateAll .swap (produce (swapDoneEvent swapped e.holder tag) swapped)

/-- R95 for the pending commit that has been met. -/
def swapPending (s : State) : State :=
  match s.session with
  | none => s
  | some e =>
    match e.pending with
    | none => s
    | some pc => swapWith e pc.tag s

/-- Does the AT_POSITION direction accept the arrival's (R90)? -/
def SwapDir.accepts : SwapDir → Dir → Bool
  | .either, _ => true
  | .up, d => d = .up
  | .down, d => d = .down

/-- R90: does a count arrival that moved p onto its present value, in direction `d`, meet the pending commit? -/
def State.arrivalMeets (s : State) (d : Dir) : Bool :=
  s.pendingCommit.any fun pc => pc.condition = .atPosition && pc.position = s.counter.p && pc.direction.accepts d

/-- R92: does an index edge meet the pending commit? -/
def State.indexMeets (s : State) : Bool := s.pendingCommit.any fun pc => pc.condition = .atIndex

/-- R93: does this period end meet the pending commit? -/
def State.restMeets (s : State) : Bool := s.monitor.rest && s.pendingCommit.any fun pc => pc.condition = .atRest

/-- The edit unit's part of an index edge (R10, R92). -/
def editAtIndex (s : State) : State := if s.indexMeets then swapPending s else s

/-- The edit unit's part of a period end (R29, R93). -/
def editAtPeriodEnd (s : State) : State := if s.restMeets then swapPending s else s

/-- R96, R99: the pending commit ends and the session returns to EDITING, with COMMIT_WITHDRAWN to the holder (cause TIMEOUT 0,
WITHDRAW 1). -/
def withdrawCommit (cause : Byte) (s : State) : State :=
  match s.session with
  | none => s
  | some e =>
    match e.pending with
    | none => s
    | some pc => produce (commitWithdrawnEvent s cause e.holder pc.tag) (s.setSession (some { e with pending := none }))

/-- R98: the session ends from either state, with COMMIT_WITHDRAWN cause END (2) where a commit was pending. -/
def endSession (s : State) : State :=
  match s.session with
  | none => s
  | some e =>
    match e.pending with
    | none => s.setSession none
    | some pc => produce (commitWithdrawnEvent s 2 e.holder pc.tag) (s.setSession none)

/-- R96: has the pending commit's timeout passed? A timeout of 0 has no deadline. -/
def State.commitDue (s : State) : Bool :=
  s.pendingCommit.any fun pc => pc.timeout ≠ 0 && pc.timeout * 1000 ≤ s.elapsed pc.accepted

end Sys2Proof.Machine
end

