-- ==== Sys2Proof/Machine/Axis.lean ====
section
/-! DEFINITION. The position counter (01) and the speed estimator and axis monitor (02): decoding, counting, index edges,
presets, faults, period ends. -/

namespace Sys2Proof.Machine

/-! ## Decoding (R3 to R7) -/

/-- What one sample of A and B means, before invert. -/
inductive Decoded
  | nothing
  | count (d : Dir)
  | error
deriving DecidableEq, Repr

/-- R4: PULSE_DIR. -/
def decodePulseDir (a0 a b : Bool) : Decoded :=
  if ! a0 && a then .count (if b then .up else .down) else .nothing

/-- R5: UP_DOWN; two rising changes in one sample cancel. -/
def decodeUpDown (a0 b0 a b : Bool) : Decoded :=
  match ! a0 && a, ! b0 && b with
  | true, true => .nothing
  | true, false => .count .up
  | false, true => .count .down
  | false, false => .nothing

/-- The direction of a valid transition of the pair AB (R6): the cycle 00, 10, 11, 01, 00 is UP. -/
def quadDir (a0 b0 a b : Bool) : Option Dir :=
  match a0, b0, a, b with
  | false, false, true, false => some .up
  | true, false, true, true => some .up
  | true, true, false, true => some .up
  | false, true, false, false => some .up
  | true, false, false, false => some .down
  | true, true, true, false => some .down
  | false, true, true, true => some .down
  | false, false, false, true => some .down
  | _, _, _, _ => none

/-- R6: the three quadrature modes; a change of both lines is a count error. -/
def decodeQuad (counts : Bool) (a0 b0 a b : Bool) : Decoded :=
  if a0 ≠ a && b0 ≠ b then .error
  else
    match quadDir a0 b0 a b with
    | some d => if counts then .count d else .nothing
    | none => .nothing

/-- The sample with levels `a`, `b` after levels `a0`, `b0`, in the input mode. QUAD_X1 counts where A changes with B at 0,
QUAD_X2 wherever A changes (Table 1-2). -/
def decode (mode : InputMode) (a0 b0 a b : Bool) : Decoded :=
  match mode with
  | .pulseDir => decodePulseDir a0 a b
  | .upDown => decodeUpDown a0 b0 a b
  | .quadX1 => decodeQuad (a0 ≠ a && ! b) a0 b0 a b
  | .quadX2 => decodeQuad (a0 ≠ a) a0 b0 a b
  | .quadX4 => decodeQuad true a0 b0 a b

/-- R7: invert reverses every count. -/
def Dir.inverted (d : Dir) (invert : Bool) : Dir :=
  match invert, d with
  | false, d => d
  | true, .up => .down
  | true, .down => .up

/-! ## Faults (R31, R14) -/

/-- R31 step 1: the fault record takes the fault. -/
def FaultRecord.note (r : Option FaultRecord) (kind : FaultKind) (time : Word32) (p : Nat) (turns : Word32) : FaultRecord :=
  match r with
  | none => { kind, time, p, turns, seen := kind.seenBit }
  | some f => { f with seen := f.seen ||| kind.seenBit }

/-- R31 steps 1 and 2: the record takes the fault and AXIS_FAULT is produced. -/
def noteFault (kind : FaultKind) (detail : Word24) (s : State) : State :=
  produce (axisFaultEvent s kind detail)
    (s.setMonitor
      { s.monitor with
        faultRecord := some (FaultRecord.note s.monitor.faultRecord kind s.time s.counter.p s.counter.turns) })

/-- R14: the reference falls to FAULTED, r is cleared and REFERENCE_CHANGED is produced; the re-evaluation is asked for apart. -/
def lowerReference (kind : FaultKind) (s : State) : State :=
  produce (referenceChangedEvent s .faulted kind.code) (s.setCounter { s.counter with ref := .faulted, r := none })

/-- R31: a fault that lowers the reference (COUNT_ERROR, SIGNAL_LOST, INDEX_DRIFT) is raised. -/
def raiseLowering (kind : FaultKind) (detail : Word24) (s : State) : State :=
  let noted := noteFault kind detail s
  if s.counter.ref = .faulted then noted else reevaluateAll .reference (lowerReference kind noted)

/-! ## Counting (R8, R9) -/

/-- R8: one step on the ring of M counts. -/
def Counter.move (c : Counter) (d : Dir) : Counter :=
  match d with
  | .up =>
    if c.p + 1 < c.modulus then { c with p := c.p + 1, lastDir := .up }
    else { c with p := 0, turns := c.turns + 1, lastDir := .up }
  | .down =>
    if 0 < c.p then { c with p := c.p - 1, lastDir := .down }
    else { c with p := c.modulus - 1, turns := c.turns - 1, lastDir := .down }

/-- R27: an arrival adds to the period count. -/
def Dir.delta : Dir → Int
  | .up => 1 | .down => -1

/-- R8, R27: the counter and the estimator take a count arrival. -/
def stepPosition (d : Dir) (s : State) : State :=
  (s.setCounter (s.counter.move d)).setMonitor { s.monitor with periodCount := s.monitor.periodCount + d.delta }

/-- R9: a count arrival of direction `d` (after invert) is taken and handed to the estimator, the edit unit and the track unit.
Where it meets an AT_POSITION commit, the order of the two re-evaluations is free (R91). -/
def takeArrival (d : Dir) (s : State) : State :=
  let moved := stepPosition d s
  if moved.arrivalMeets d then
    if Config.motionFirst s.choices then swapPending (reevaluateAll .motion moved.advanceChoices)
    else reevaluateAll .motion (swapPending moved.advanceChoices)
  else reevaluateAll .motion moved

/-! ## Index edges (R10, R19, R37) -/

/-- R37: the circular distance between two positions on the ring of `m` counts. -/
def circularDistance (p r m : Nat) : Nat := min ((p - r) + (r - p)) (m - ((p - r) + (r - p)))

/-- Presets place the position (R17, R19): p, turns 0, REFERENCED, no armed preset, r as given; PRESET_DONE to port `p`, then
re-evaluation with cause PRESET. -/
def placePosition (mode : PresetMode) (value : Nat) (p : Port) (r : Option Nat) (s : State) : State :=
  let placed := s.setCounter { s.counter with p := value, turns := 0, ref := .referenced, r := r, armed := none }
  reevaluateAll .preset (produce (presetDoneEvent placed mode p value) placed)

/-- An index edge that raises INDEX_DRIFT (R10, R37) and then reaches the edit unit. Where it also meets an AT_INDEX commit, the
order of the two re-evaluations is free (R92). -/
def driftEdge (d : Nat) (s : State) : State :=
  let lowered := lowerReference .indexDrift (noteFault .indexDrift (BitVec.ofNat 24 d) s)
  if lowered.indexMeets then
    if Config.referenceFirst s.choices then swapPending (reevaluateAll .reference lowered.advanceChoices)
    else reevaluateAll .reference (swapPending lowered.advanceChoices)
  else reevaluateAll .reference lowered

/-- R10: an index edge is taken by the counter and handed to the edit unit. -/
def takeIndexEdge (s : State) : State :=
  match s.counter.armed with
  | some a => editAtIndex (placePosition .atIndex a.value a.port (some a.value) s)
  | none =>
    if s.counter.ref = .referenced then
      match s.counter.r with
      | none => editAtIndex (s.setCounter { s.counter with r := some s.counter.p })
      | some r =>
        if 0 < s.monitor.driftTolerance &&
            s.monitor.driftTolerance < circularDistance s.counter.p r s.counter.modulus then
          driftEdge (circularDistance s.counter.p r s.counter.modulus) s
        else editAtIndex s
    else editAtIndex s

/-! ## One decoder sample (R3) -/

/-- An AB state as 2·A + B (R178). -/
def abCode (a b : Bool) : Byte := (if a then 2 else 0) ||| (if b then 1 else 0)

/-- A sample's levels of A and B: the decoder line state takes them, and the change counts, or is a count error, or neither. -/
def sampleCount (a b : Bool) (s : State) : State :=
  let c := s.counter
  let taken := s.setCounter { c with lineA := a, lineB := b, resyncCount := false }
  if c.resyncCount || s.monitor.signalLoss then taken
  else
    match decode c.inputMode c.lineA c.lineB a b with
    | .nothing => taken
    | .count d => takeArrival (d.inverted c.invert) taken
    | .error => raiseLowering .countError (bytes24 0 (abCode c.lineA c.lineB) (abCode a b)) taken

/-- A sample's level of INDEX: a rising change is an index edge. -/
def sampleIndex (index : Bool) (s : State) : State :=
  let c := s.counter
  let taken := s.setCounter { c with lineIndex := index, resyncIndex := false }
  if c.resyncIndex || s.monitor.signalLoss then taken
  else if ! c.lineIndex && index then takeIndexEdge taken
  else taken

/-- One sample, its change of A and B taken before its change of INDEX. The decoder takes none before the load has ended (R2). -/
def sampleCountFirst (a b index : Bool) (s : State) : State :=
  if s.inService then sampleIndex index (sampleCount a b s) else s

/-- One sample, its change of INDEX taken before its change of A and B. -/
def sampleIndexFirst (a b index : Bool) (s : State) : State :=
  if s.inService then sampleCount a b (sampleIndex index s) else s

/-! ## Receivers and the signal-loss condition (R33 to R35) -/

def joinLines (x y : LineSet) : LineSet := ⟨x.a || y.a, x.b || y.b, x.index || y.index⟩
def dropLines (x y : LineSet) : LineSet := ⟨x.a && ! y.a, x.b && ! y.b, x.index && ! y.index⟩

/-- R33, R34: receivers report in fault. While the condition holds this only cancels a running restore hold; otherwise a
receiver that was healthy begins the condition and raises SIGNAL_LOST. Before service nothing is raised (R35). -/
def receiversFail (lines : LineSet) (s : State) : State :=
  let reported := joinLines s.monitor.inFault lines
  if ! s.inService then s.setMonitor { s.monitor with inFault := reported }
  else if s.monitor.signalLoss then
    s.setMonitor { s.monitor with inFault := reported, restoreHold := if noLines lines then s.monitor.restoreHold else none }
  else if reported = s.monitor.inFault then s
  else
    raiseLowering .signalLost (bytes24 0 0 (lineCode reported))
      (s.setMonitor { s.monitor with inFault := reported, signalLoss := true, lossTouched := true, restoreHold := none })

/-- R34: receivers report healthy; when all three do while the condition holds, an idle restore hold starts now. -/
def receiversHeal (lines : LineSet) (s : State) : State :=
  let reported := dropLines s.monitor.inFault lines
  s.setMonitor
    { s.monitor with
      inFault := reported
      restoreHold :=
        if s.inService && s.monitor.signalLoss && noLines reported && s.monitor.restoreHold.isNone then some s.time
        else s.monitor.restoreHold }

/-- R34: has the restore hold run for 1 ms with all receivers healthy? -/
def State.holdDue (s : State) : Bool :=
  s.monitor.signalLoss && noLines s.monitor.inFault && s.monitor.restoreHold.any fun t => 1000 ≤ s.elapsed t

/-- R34: the hold returns to idle, the condition ends and SIGNAL_RESTORED is produced. -/
def restoreSignal (s : State) : State :=
  produce (signalRestoredEvent s) (s.setMonitor { s.monitor with signalLoss := false, restoreHold := none })

/-! ## Sample periods (R26 to R29, R36) -/

/-- R26: have SP ms passed since the period start? -/
def State.periodDue (s : State) : Bool := s.inService && s.monitor.periodLength * 1000 ≤ s.elapsed s.monitor.periodStart

/-- R28: the period that closes gives the speed and the rest flag, and the next begins at the same time-base value, with the
sample period in force (R24). -/
def Monitor.closePeriod (m : Monitor) : Monitor :=
  { m with
    speed := (m.periodCount * 1000).tdiv m.periodLength
    rest := m.periodCount = 0 && ! m.lossTouched
    periodCount := 0
    periodStart := m.periodStart + BitVec.ofNat 32 (m.periodLength * 1000)
    periodLength := m.samplePeriod
    lossTouched := m.signalLoss }

/-- R36: is a period with this speed over the limit? -/
def Monitor.overLimit (m : Monitor) : Bool := 0 < m.overspeedLimit && m.overspeedLimit < m.speed.natAbs

/-- R36: will this period end raise OVERSPEED? -/
def Monitor.raisesOverspeed (m : Monitor) : Bool := m.overLimit && ! m.overspeed

/-- R36: the monitor judges the new speed. -/
def judgeOverspeed (s : State) : State :=
  let judged := s.setMonitor { s.monitor with overspeed := s.monitor.overLimit }
  if s.monitor.raisesOverspeed then
    noteFault .overspeed (BitVec.ofNat 24 (min s.monitor.speed.natAbs 16777215)) judged
  else judged

/-- The three receivers of a period end (R29). -/
inductive PeriodReceiver | motion | edit | overspeed
deriving DecidableEq, Repr

/-- The six orders of the receivers. -/
def periodReceivers (n : Fin 6) : List PeriodReceiver :=
  match n with
  | 0 => [.motion, .edit, .overspeed]
  | 1 => [.motion, .overspeed, .edit]
  | 2 => [.edit, .motion, .overspeed]
  | 3 => [.edit, .overspeed, .motion]
  | 4 => [.overspeed, .motion, .edit]
  | 5 => [.overspeed, .edit, .motion]

def PeriodReceiver.act (s : State) : PeriodReceiver → State
  | .motion => motionAtPeriodEnd s
  | .edit => editAtPeriodEnd s
  | .overspeed => judgeOverspeed s

/-- R28, R29: a period end. The order of the receivers is free where more than the track unit has something to do. -/
def closeSamplePeriod (s : State) : State :=
  let closed := s.setMonitor s.monitor.closePeriod
  if closed.restMeets || closed.monitor.raisesOverspeed then
    (periodReceivers (Config.periodOrder s.choices)).foldl PeriodReceiver.act closed.advanceChoices
  else (periodReceivers 0).foldl PeriodReceiver.act closed

/-! ## Axis authority, presets and configuration -/

/-- R12, R20, R21: an armed preset is withdrawn with PRESET_WITHDRAWN to its requester (CANCEL 0, RELEASE 1, GEOMETRY 2). -/
def withdrawPreset (cause : Byte) (s : State) : State :=
  match s.counter.armed with
  | none => s
  | some a => produce (presetWithdrawnEvent s cause a) (s.setCounter { s.counter with armed := none })

/-- The axis claim is freed and OWNER_CHANGED produced (R11, R12; RELEASE 1, LAPSE 2). -/
def freeAxis (p : Port) (cause : Byte) (s : State) : State :=
  produce (ownerChangedEvent true 0 (some p) none cause) (s.setCounter { s.counter with claim := none })

/-- R22: are the geometry values those in force? -/
def AxisConfig.sameGeometry (x : AxisConfig) (c : Counter) : Bool :=
  x.modulus = c.modulus && x.inputMode = c.inputMode && x.invert = c.invert

/-- R24: the three values that are no geometry. -/
def setLimits (x : AxisConfig) (s : State) : State :=
  s.setMonitor
    { s.monitor with
      samplePeriod := x.samplePeriod, overspeedLimit := x.overspeedLimit, driftTolerance := x.driftTolerance }

/-- R23, R30: the counter's and the estimator's values after a change of geometry, the armed preset still to be withdrawn. -/
def placeGeometry (x : AxisConfig) (s : State) : State :=
  (s.setCounter
    { s.counter with
      p := 0, turns := 0, modulus := x.modulus, inputMode := x.inputMode, invert := x.invert, lastDir := .up,
      ref := .unreferenced, r := none, resyncCount := true }).setMonitor
    { s.monitor with
      samplePeriod := x.samplePeriod, overspeedLimit := x.overspeedLimit, driftTolerance := x.driftTolerance,
      periodLength := x.samplePeriod, periodStart := s.time, periodCount := 0, speed := 0, rest := true,
      overspeed := false, lossTouched := s.monitor.signalLoss }

/-- R23: a change of geometry, its events in the order PRESET_WITHDRAWN, REFERENCE_CHANGED (cause GEOMETRY 5), EDGE events. -/
def changeGeometry (x : AxisConfig) (s : State) : State :=
  let withdrawn := withdrawPreset 2 (placeGeometry x s)
  let reported := produceIf (s.counter.ref ≠ .unreferenced) (referenceChangedEvent withdrawn .unreferenced 5) withdrawn
  reevaluateAll .reference (recomputeShifts reported)

end Sys2Proof.Machine
end

