-- ==== Sys2Proof/Machine/StoreOps.lean ====
section
/-! DEFINITION. The program store (06): judging contents, generations, the snapshot, completions, boot selection. -/

namespace Sys2Proof.Machine

/-! ## Judging (R103, R114) -/

/-- R103: is every field of the image in its range, every list valid under the image's modulus, and the pool kept? -/
def Image.wellMade (g : Image) : Bool :=
  1 ≤ g.generation.toNat && 2 ≤ g.modulus && g.modulus ≤ 16777216 && 1 ≤ g.samplePeriod && g.samplePeriod ≤ 1000 &&
  g.overspeedLimit ≤ 16000000 && g.driftTolerance ≤ 255 &&
  ((Table.numbers 16).all fun t => (g.settings.look t).lead ≤ 20000) &&
  ((Table.numbers 16).all fun t => (checkList g.modulus (g.lists.look t)).isNone) &&
  totalOf g.lists ≤ 96

/-- R103: are the contents whole? -/
def Contents.whole : Contents → Option Image
  | .torn => none
  | .image g checkAgrees => if checkAgrees && g.wellMade then some g else none

/-- The contents of a slot as the power-up load reads them; none is no image at all. An unfinished operation leaves neither
image (R113). -/
def Slot.contents : Slot → Option Contents
  | .empty => none
  | .valid g => some (.image g true)
  | .damaged c => some c
  | .writing _ | .erasing => some .torn

/-- R114: does a slot of lower number read whole with the same generation? -/
def lowerTwin (slots : Table 4 Slot) (i : SlotNo) (g : Image) : Bool :=
  (Table.numbers 4).any fun j =>
    j < i && (((slots.look j).contents.bind Contents.whole).any fun h => h.generation = g.generation)

/-- R114: the state the power-up load judges slot `i` to be in. -/
def judgeSlot (slots : Table 4 Slot) (i : SlotNo) : Slot :=
  match (slots.look i).contents with
  | none => .empty
  | some c =>
    match c.whole with
    | some g => if lowerTwin slots i g then .damaged c else .valid g
    | none => .damaged c

def judgeSlots (slots : Table 4 Slot) : Table 4 Slot := Table.build (judgeSlot slots)

/-! ## Generations (R104, R105, R115) -/

/-- The image of a VALID slot. -/
def Slot.validImage : Slot → Option Image
  | .valid g => some g
  | _ => none

/-- The slot with the highest generation among those that `f` picks; of equal generations the lowest slot. -/
def highest (slots : Table 4 Slot) (f : Image → Bool) : Option BootRecord :=
  (Table.numbers 4).foldl
    (fun best i =>
      match (slots.look i).validImage with
      | some g =>
        if f g && best.all (fun b => b.generation.toNat < g.generation.toNat) then
          some { slot := i, generation := g.generation }
        else best
      | none => best)
    none

/-- R104: the VALID slot with the highest generation. -/
def highestValid (slots : Table 4 Slot) : Option BootRecord := highest slots fun _ => true

/-- R115: the boot candidate with the highest generation. -/
def bootCandidate (slots : Table 4 Slot) : Option BootRecord := highest slots Image.boot

/-- R105: one more than the highest VALID generation, or 1. -/
def nextGeneration (slots : Table 4 Slot) : Word32 :=
  match highestValid slots with
  | none => 1
  | some b => b.generation + 1

/-- R105: the snapshot a STORE-SLOT takes. -/
def snapshot (s : State) (boot : Bool) : Image :=
  { generation := nextGeneration s.store.slots, boot, tag := s.active.tag, modulus := s.counter.modulus,
    inputMode := s.counter.inputMode, invert := s.counter.invert, samplePeriod := s.monitor.samplePeriod,
    overspeedLimit := s.monitor.overspeedLimit, driftTolerance := s.monitor.driftTolerance,
    settings := Table.build fun t =>
      { orphan := (s.track t).orphan, lead := (s.track t).lead, runUnref := (s.track t).runUnref },
    lists := s.active.lists }

/-- An operation is accepted: the slot changes state and the record becomes BUSY (R105, R108). -/
def startStore (s : State) (i : SlotNo) (x : Slot) (kind : StoreKind) (p : Port) : State :=
  s.setStore
    { s.store with slots := s.store.slots.put i x, op := some { kind := kind, slot := i, requester := some p } }

/-- An operation ends: the slot takes its new state and the record becomes IDLE. -/
def endStore (s : State) (i : SlotNo) (x : Slot) : State :=
  s.setStore { s.store with slots := s.store.slots.put i x, op := none }

/-! ## Completions (R106, R109) -/

/-- R106: the store reads back what it wrote and judges it; `cellsHold` says whether the cells hold what was written. -/
def completeStore (cellsHold : Bool) (s : State) : State :=
  match s.store.op with
  | some { kind := .store, slot := i, requester := r } =>
    match s.slot i with
    | .writing g =>
      match (Contents.image g cellsHold).whole with
      | some h => endStore (produce (storeDoneEvent i h.generation r) s) i (.valid h)
      | none => endStore (produce (storeFailedEvent s i r) s) i (.damaged (.image g cellsHold))
    | other => endStore s i other
  | _ => s

/-- R109: the slot becomes EMPTY and ERASE_DONE is produced. -/
def completeErase (s : State) : State :=
  match s.store.op with
  | some { kind := .erase, slot := i, requester := r } => endStore (produce (eraseDoneEvent s i r) s) i .empty
  | _ => s

end Sys2Proof.Machine
end

