-- ==== Sys2Proof/Machine/Ports.lean ====
section
/-! DEFINITION. The port units (08): the port reset, the composition of a response, the recording of a refusal. -/

namespace Sys2Proof.Machine

/-! ## Port reset (R152, R153) -/

/-- What causes a port reset. -/
inductive ResetCause | close | lineBreak | expiry
deriving DecidableEq, Repr

def ResetCause.endCause : ResetCause → EndCause
  | .close => .closedByRequest | .lineBreak => .lineBreak | .expiry => .expiry

def ResetCause.portState : ResetCause → PortState
  | .close | .lineBreak => .closed
  | .expiry => .expired

/-- The ownership cause the other masters are told: RELEASE 1 for a CLOSE, LAPSE 2 otherwise (R65). -/
def ResetCause.ownership : ResetCause → Byte
  | .close => 1
  | .lineBreak | .expiry => 2

/-- Step 1: the axis claim is freed, an armed preset withdrawn without an event. -/
def resetAxisOf (p : Port) (c : ResetCause) (s : State) : State :=
  if s.counter.claim = some p then freeAxis p c.ownership (s.setCounter { s.counter with armed := none }) else s

/-- Does port `p` own the track? -/
def State.owns (s : State) (p : Port) (t : TrackNo) : Bool := (s.track t).ownerPort = some p

/-- Step 2: every track of the port is released to its orphan action (R65). -/
def resetTracksOf (p : Port) (c : ResetCause) (s : State) : State :=
  if (tracksWhere (s.owns p)).isEmpty then s else freeTracks (s.owns p) p c.ownership s

/-- Step 3: the session ends where the port holds it, with no event (R101). -/
def resetSessionOf (p : Port) (s : State) : State := if s.holdsSession p then s.setSession none else s

/-- Step 4: the store forgets the port as requester (R107). -/
def resetRequesterOf (p : Port) (s : State) : State :=
  s.setStore
    { s.store with
      op := s.store.op.map fun o => if o.requester = some p then { o with requester := none } else o }

/-- Step 5: the queue is emptied, the numbers set to 0, the subscription cleared (R130). -/
def resetBoxOf (p : Port) (s : State) : State := s.setBox p Mailbox.reset

/-- Step 6 and R153: what the port record takes; an expiry keeps the first-refusal record. -/
def PortRec.afterReset (r : PortRec) (c : ResetCause) : PortRec :=
  { r with
    state := c.portState
    endCause := c.endCause
    cache := none
    timer := none
    refusal := if c = .expiry then r.refusal else none
    refusals := if c = .expiry then r.refusals else 0 }

/-- R152: the port reset. From its start the port counts as not OPEN for the filing of events, so its state is taken out of
OPEN first; the rest of its record follows in step 6. -/
def portReset (p : Port) (c : ResetCause) (s : State) : State :=
  let left := s.setPort p { s.port p with state := c.portState }
  let freed := resetBoxOf p (resetRequesterOf p (resetSessionOf p (resetTracksOf p c (resetAxisOf p c left))))
  freed.setPort p ((freed.port p).afterReset c)

/-- R143, R149: an EXPIRED port becomes CLOSED: the cache is emptied, the first-refusal record and count are cleared, the end
cause stays. In CLOSED the same leaves the state as it was. -/
def PortRec.closeExpired (r : PortRec) : PortRec :=
  { r with state := .closed, cache := none, refusal := none, refusals := 0 }

/-! ## Frames taken (R150, R163, R144, R147) -/

/-- R150: a valid frame restarts the supervision timer while it runs. -/
def restartTimer (p : Port) (s : State) : State :=
  s.setPort p { s.port p with timer := (s.port p).timer.map fun _ => s.time }

/-- R163: a refusal at an OPEN port adds to the count and fills an empty record. -/
def PortRec.noteRefusal (r : PortRec) (x : Refused) : PortRec :=
  { r with refusals := satInc r.refusals, refusal := some (r.refusal.getD x) }

/-- R144, R160: the response as composed in state `s`. -/
def compose (s : State) (p : Port) (seq code : Byte) (status : Status) (detail : Word16) (payload : List Byte) : Response :=
  { seq, code, status, detail, flags := responseFlags s p, payload }

/-- R144, R147: the response goes to the transmitter and, with the request's key, into the retry cache. -/
def sendResponse (p : Port) (check : Word16) (r : Response) (s : State) : State :=
  s.setPort p
    { s.port p with tx := some r, cache := some { seq := r.seq, code := r.code, check := check, response := r } }

/-- The bits that port `p` sends for the response on its transmit line; none while its transmitter is IDLE (R137, R144). -/
def State.txBits (s : State) (p : Port) : List Bool :=
  match (s.port p).tx with
  | none => []
  | some x => lineBits x.chars

/-- The level of the transmit line of port `p` in bit time `n` of what it sends. An idle line is at 1 (R137). -/
def State.txLevel (s : State) (p : Port) (n : Nat) : Bool := (s.txBits p).getD n true

/-- What follows the response: the port reset of a CLOSE, or the end of an EXPIRED port (R147, R149, R160). -/
def After.act (a : After) (p : Port) (s : State) : State :=
  match a with
  | .nothing => s
  | .thenReset => portReset p .close s
  | .thenClosed => s.setPort p (s.port p).closeExpired

/-- The end of admission: the refusal is recorded where the port was OPEN when the request was taken (R163), the response is
composed with the flags of the moment (R160), sent and kept (R147), and what follows it is done. -/
def finish (p : Port) (seq code : Byte) (check : Word16) (wasOpen : Bool) (y : Reply) (time : Word32) : State :=
  let recorded :=
    if wasOpen && y.status.refuses then
      y.state.setPort p ((y.state.port p).noteRefusal { status := y.status, code, detail := y.detail, seq, time })
    else y.state
  y.after.act p (sendResponse p check (compose recorded p seq code y.status y.detail y.payload) recorded)

/-- R150: has the port's supervision time passed since its timer's start? -/
def State.supervisionDue (s : State) (p : Port) : Bool :=
  s.isOpen p && (s.port p).supervision ≠ 0 &&
    (s.port p).timer.any fun t => (s.port p).supervision * 1000 ≤ s.elapsed t

end Sys2Proof.Machine
end

