-- ==== Sys2Proof/Machine/EventRequests.lean ====
section
/-! DEFINITION. What the event unit answers: SUBSCRIBE and FETCH-EVENTS (07). -/

namespace Sys2Proof.Machine

/-- R126. The class set's three high bits are undefined: set, they are out of range (R170). -/
def reqSubscribe (p : Port) (payload : List Byte) (s : State) : Reply :=
  if u8 payload 2 < 32 then
    replyOk
      (s.setBox p { s.box p with trackMask := word16 payload 0, classes := BitVec.ofNat 5 (u8 payload 2) }) 0
      (be16 (s.box p).trackMask ++ [(s.box p).classes.setWidth 8])
  else refuseRange s 1

/-- R128: the lost count and the records that a fetch of `n` returns. -/
def fetchPayload (m : Mailbox) (n : Nat) : List Byte :=
  be16 m.lost ++ (byteOf (m.queue.take n).length :: (m.queue.take n).flatMap Record.bytes)

/-- R128. -/
def reqFetchEvents (p : Port) (payload : List Byte) (s : State) : Reply :=
  let n := u8 payload 0
  if 1 ≤ n && n ≤ 8 then
    let m := s.box p
    replyOk (s.setBox p { m with queue := m.queue.drop n, lost := 0 }) (BitVec.ofNat 16 (m.queue.drop n).length)
      (fetchPayload m n)
  else refuseRange s 0

end Sys2Proof.Machine
end

