-- ==== Sys2Proof/Machine/Power.lean ====
section
/-! DEFINITION. Device reset and the power-up load (4.6 of 00_scope; R2, R25, R59, R113 to R117). -/

namespace Sys2Proof.Machine

/-- R113: a reset interrupts a write or an erase; the contents are then neither the old image nor the new one. -/
def Slot.interrupted : Slot → Slot
  | .writing _ | .erasing => .damaged .torn
  | other => other

/-- Device reset: every block takes its reset values. Kept are the slots (R102), the boot record until the next load (R115),
and what is no state of the part's own making: the OE input (R77), the receivers' reports (R35), the receive lines (R117), the
line rate until the straps are read again (R137), the model's own fields. -/
def deviceReset (s : State) : State :=
  { State.reset with
    lineRate := s.lineRate
    monitor := { Monitor.reset with inFault := s.monitor.inFault }
    oe := s.oe
    store :=
      { slots := Table.build fun i => (s.slot i).interrupted
        op := none
        boot := s.store.boot }
    ports := Table.build fun p => { PortRec.reset with line := (s.port p).line }
    choices := s.choices
    pending := s.pending }

/-- R114, R115, R137: the power-up load reads the straps, judges the slots and selects the boot image. -/
def beginLoad (straps : BitVec 2) (s : State) : State :=
  ((s.setStore
      { s.store with
        slots := judgeSlots s.store.slots
        boot := bootCandidate (judgeSlots s.store.slots) }).setLineRate straps).setLifecycle .loading

/-- The image the boot record names. -/
def bootImage (s : State) : Option Image := s.store.boot.bind fun b => (s.slot b.slot).validImage

/-- R116: the image's parts are applied to the four blocks, as settings. -/
def applyImage (g : Image) (s : State) : State :=
  (((s.setCounter { s.counter with modulus := g.modulus, inputMode := g.inputMode, invert := g.invert }).setMonitor
      { s.monitor with
        samplePeriod := g.samplePeriod, overspeedLimit := g.overspeedLimit,
        driftTolerance := g.driftTolerance }).setActive { lists := g.lists, tag := g.tag }).setTracks
    (Table.build fun t =>
      { s.track t with
        orphan := (g.settings.look t).orphan
        lead := (g.settings.look t).lead
        runUnref := (g.settings.look t).runUnref })

/-- R25, R35: the first sample period begins, and the signal-loss condition holds from now if a receiver reports in fault. -/
def Monitor.firstPeriod (m : Monitor) (now : Word32) : Monitor :=
  { m with
    periodLength := m.samplePeriod
    periodStart := now
    signalLoss := ! noLines m.inFault
    lossTouched := ! noLines m.inFault
    restoreHold := none }

/-- R116: the load ends: the parts are applied, the first sample period begins, levels and pins are set without events, and the
ports begin to receive. -/
def endLoad (s : State) : State :=
  let applied :=
    match bootImage s with
    | some g => applyImage g s
    | none => s
  (settleLevels (applied.setMonitor (applied.monitor.firstPeriod applied.time))).setLifecycle .running

end Sys2Proof.Machine
end

