-- ==== Sys2Proof/Machine/PortRequests.lean ====
section
/-! DEFINITION. What the port units answer: IDENTIFY, OPEN, CLOSE, READ-STATUS, CLEAR-FAULT and RESTART (08, 09).

Every `req…` is the owning block's part of admission, steps 6 to 8 of Table 9-1, and the request's effects. The payload has the
request's length. -/

namespace Sys2Proof.Machine

/-! ## IDENTIFY (R165, R174) -/

def revisionByte : Byte := byteOf (Config.revisionLessOne.val + 1)

def identifyPayload (s : State) (p : Port) : List Byte :=
  be16 0x4E10 ++ [revisionByte, byteOf p.val, s.lineRate.setWidth 8, 4, 16, 12, 96, 32, 8, 4, 160]

def reqIdentify (p : Port) (_payload : List Byte) (s : State) : Reply := replyOk s 0 (identifyPayload s p)

/-! ## OPEN and CLOSE (R149) -/

/-- The supervision timer after an OPEN with this time: started now, or stopped for 0. -/
def timerFor (s : State) (supervision : Nat) : Option Word32 := if supervision = 0 then none else some s.time

def reqOpen (p : Port) (payload : List Byte) (s : State) : Reply :=
  if supervisionOk (u16 payload 0) then
    let r := s.port p
    let opened :=
      s.setPort p
        { r with
          state := .opened, supervision := u16 payload 0, timer := timerFor s (u16 payload 0), tag := word16 payload 2,
          endCause := .none }
    replyOk opened 0 [byteOf p.val, if r.state = .opened then EndCause.none.code else r.endCause.code]
  else refuseRange s 0

/-- What a CLOSE brings about follows its response (R147, R160), whose flags show the port as it stood. -/
def reqClose (p : Port) (_payload : List Byte) (s : State) : Reply :=
  match (s.port p).state with
  | .opened => { replyOk s with after := .thenReset }
  | .expired => { replyOk s with after := .thenClosed }
  | .closed => refuse s .notOpen

/-! ## READ-STATUS (R166, R167, R175) -/

def ownPortPart (s : State) (p : Port) : List Byte :=
  let r := s.port p
  byteOf p.val :: (be16Nat r.supervision ++ be16 r.tag ++ be16 r.checkErrors ++ be16 r.frameErrors ++ be16 r.overruns ++
    be16 r.replays)

def refusalPart (r : PortRec) : List Byte :=
  (match r.refusal with
   | none => List.replicate 10 0
   | some x => [1, x.status.code, x.code] ++ be16 x.detail ++ [x.seq] ++ be32 x.time) ++ be16 r.refusals

def allPortsPart (s : State) : List Byte :=
  (Table.numbers 4).flatMap fun q => (s.port q).state.code :: be16 (s.port q).tag

def sessionPart (s : State) : List Byte :=
  match s.session with
  | none => [0xFF, 0]
  | some e => [byteOf e.holder.val, boolByte e.isPending]

/-- R166: whole ms left to the deadline, rounded down; 0xFFFF for no deadline (R175). -/
def timeLeft (s : State) (pc : PendingCommit) : Word16 :=
  match pc.deadline with
  | none => 0xFFFF
  | some _ => BitVec.ofNat 16 ((pc.timeout * 1000 - s.elapsed pc.accepted) / 1000)

/-- The pending commit is reported to its holder only. -/
def commitPart (s : State) (p : Port) : List Byte :=
  match s.session with
  | some { holder := h, shadow := _, pending := some pc } =>
    if h = p then
      [1, pc.condition.code] ++ be24Nat pc.position ++ [pc.direction.code] ++ be16 pc.tag ++ be16 (timeLeft s pc)
    else List.replicate 10 0
  | _ => List.replicate 10 0

def storePart (s : State) : List Byte :=
  match s.store.op with
  | none => [0, Config.idleStoreSlotByte s.choices, portByte none]
  | some o => [o.kind.code, byteOf o.slot.val, portByte o.requester]

def bootPart (s : State) : List Byte :=
  match s.store.boot with
  | none => 0xFF :: be32 (Config.noBootGeneration s.choices)
  | some b => byteOf b.slot.val :: be32 b.generation

def statusPayload (s : State) (p : Port) : List Byte :=
  ownPortPart s p ++ refusalPart (s.port p) ++ allPortsPart s ++ sessionPart s ++ commitPart s p ++ storePart s ++
    bootPart s ++ [boolByte s.oe] ++ be32 s.time

/-- R167: the four link counters set to 0. -/
def PortRec.clearCounters (r : PortRec) : PortRec :=
  { r with checkErrors := 0, frameErrors := 0, overruns := 0, replays := 0 }

/-- Option 0 KEEP, 1 CLEAR. The payload's free bytes (log 11) are read, and the counter of choices advances. -/
def reqReadStatus (p : Port) (payload : List Byte) (s : State) : Reply :=
  match boolOfCode (u8 payload 0) with
  | none => refuseRange s 0
  | some clear =>
    let chosen := s.advanceChoices
    replyOk (if clear then chosen.setPort p (s.port p).clearCounters else chosen) 0 (statusPayload s p)

/-! ## CLEAR-FAULT (R164) -/

def reqClearFault (p : Port) (payload : List Byte) (s : State) : Reply :=
  if isRefusalCode (u8 payload 0) then
    match (s.port p).refusal with
    | none => replyOk s
    | some x =>
      if x.status.code.toNat = u8 payload 0 then
        replyOk (s.setPort p { s.port p with refusal := none, refusals := 0 }) (s.port p).refusals
      else refuse s .stale (x.status.code.setWidth 16)
  else refuseRange s 0

/-! ## RESTART (R155) -/

/-- The lowest other OPEN port. -/
def otherOpen (s : State) (p : Port) : Option Port := (Table.numbers 4).find? fun q => q ≠ p && s.isOpen q

def reqRestart (p : Port) (_payload : List Byte) (s : State) : Reply :=
  match otherOpen s p with
  | some q => refuse s .inUse (portWord (some q))
  | none =>
    match s.store.op with
    | some o => refuse s .storeBusy (BitVec.ofNat 16 o.slot.val)
    | none => replyOk (s.setLifecycle (.restarting p))

end Sys2Proof.Machine
end

