-- ==== Sys2Proof/Machine/AxisRequests.lean ====
section
/-! DEFINITION. What the position counter and the axis monitor answer: CLAIM-AXIS, RELEASE-AXIS, PRESET, CANCEL-PRESET,
SET-AXIS, READ-AXIS and CLEAR-AXIS-FAULT (01, 02, 09). -/

namespace Sys2Proof.Machine

/-- R12, R16, R22: the caller does not hold the axis claim; the detail is its holder, or 0xFFFF. -/
def refuseNoClaim (s : State) : Reply := refuse s .notOwner (portWord s.counter.claim)

/-- R11. -/
def reqClaimAxis (p : Port) (_payload : List Byte) (s : State) : Reply :=
  match s.counter.claim with
  | none =>
    replyOk (produce (ownerChangedEvent true 0 none (some p) 0) (s.setCounter { s.counter with claim := some p }))
  | some q => if q = p then replyOk s else refuse s .owned (portWord (some q))

/-- R12. -/
def reqReleaseAxis (p : Port) (_payload : List Byte) (s : State) : Reply :=
  if s.counter.claim = some p then replyOk (freeAxis p 1 (withdrawPreset 1 s)) else refuseNoClaim s

/-- R16 to R18. -/
def reqPreset (p : Port) (payload : List Byte) (s : State) : Reply :=
  match firstBad [u24 payload 0 < s.counter.modulus, (PresetMode.ofCode (u8 payload 3)).isSome] with
  | some i => refuseRange s i
  | none =>
    if s.counter.claim ≠ some p then refuseNoClaim s
    else if s.monitor.signalLoss then refuse s .state 0
    else if PresetMode.ofCode (u8 payload 3) = some .now then
      replyOk (placePosition .now (u24 payload 0) p none s)
    else replyPending (s.setCounter { s.counter with armed := some { value := u24 payload 0, port := p } })

/-- R20. -/
def reqCancelPreset (p : Port) (_payload : List Byte) (s : State) : Reply :=
  if s.counter.claim ≠ some p then refuseNoClaim s
  else if s.counter.armed.isSome then replyOk (withdrawPreset 0 s)
  else refuse s .state 0

/-- R22 to R24; the claim is judged before the ranges. -/
def reqSetAxis (p : Port) (payload : List Byte) (s : State) : Reply :=
  if s.counter.claim ≠ some p then refuseNoClaim s
  else
    match firstBad (axisInRange payload) with
    | some i => refuseRange s i
    | none =>
      if s.session.isSome then refuse s .inUse 1
      else if s.active.reaches (axisConfig payload).modulus then refuse s .inUse 2
      else if (axisConfig payload).sameGeometry s.counter then replyOk (setLimits (axisConfig payload) s)
      else replyOk (changeGeometry (axisConfig payload) s)

/-! ## READ-AXIS (R168, R176) -/

def positionPart (c : Counter) : List Byte := be24Nat c.p ++ be32 c.turns ++ [c.lastDir.code]

def referencePart (c : Counter) : List Byte :=
  c.ref.code ::
    ((match c.r with
      | none => List.replicate 4 0
      | some r => 1 :: be24Nat r) ++
     (match c.armed with
      | none => List.replicate 5 0
      | some a => 1 :: (be24Nat a.value ++ [byteOf a.port.val])) ++
     [portByte c.claim])

def configurationPart (c : Counter) (m : Monitor) : List Byte :=
  be32Nat c.modulus ++ [c.inputMode.code, boolByte c.invert] ++ be16Nat m.samplePeriod ++ be24Nat m.overspeedLimit ++
    [byteOf m.driftTolerance]

def motionPart (m : Monitor) : List Byte :=
  be32 (BitVec.ofInt 32 m.speed) ++ [boolByte m.rest, boolByte m.overspeed]

def signalPart (m : Monitor) : List Byte := [boolByte m.signalLoss, lineCode m.inFault]

def faultPart (m : Monitor) : List Byte :=
  match m.faultRecord with
  | none => List.replicate 14 0
  | some f => [1, f.kind.code] ++ be32 f.time ++ be24Nat f.p ++ be32 f.turns ++ [f.seen.setWidth 8]

def axisPayload (s : State) : List Byte :=
  positionPart s.counter ++ referencePart s.counter ++ configurationPart s.counter s.monitor ++ motionPart s.monitor ++
    signalPart s.monitor ++ faultPart s.monitor

def reqReadAxis (_p : Port) (_payload : List Byte) (s : State) : Reply := replyOk s 0 (axisPayload s)

/-- R39. -/
def reqClearAxisFault (_p : Port) (payload : List Byte) (s : State) : Reply :=
  match FaultKind.ofCode (u8 payload 0) with
  | none => refuseRange s 0
  | some k =>
    match s.monitor.faultRecord with
    | none => replyOk s
    | some f =>
      if f.kind = k then replyOk (s.setMonitor { s.monitor with faultRecord := none })
      else refuse s .stale (f.kind.code.setWidth 16)

end Sys2Proof.Machine
end

