-- ==== Sys2Proof/Machine/EditRequests.lean ====
section
/-! DEFINITION. What the edit unit and the program memory answer: OPEN-EDIT, WRITE-WINDOWS, READ-WINDOWS, COMMIT and ABORT-EDIT
(03, 05). -/

namespace Sys2Proof.Machine

/-- R56, R83, R86, R98, R110: the caller does not hold the session; the detail is its holder, or 0xFFFF. -/
def refuseNoSession (s : State) : Reply := refuse s .noSession (portWord (s.session.map EditSession.holder))

/-- The session, where the port holds it. -/
def State.sessionOf (s : State) (p : Port) : Option EditSession := s.session.filter fun e => e.holder = p

/-- R80. Start 0 COPY, 1 EMPTY. -/
def reqOpenEdit (p : Port) (payload : List Byte) (s : State) : Reply :=
  match boolOfCode (u8 payload 0) with
  | none => refuseRange s 0
  | some empty =>
    match s.session with
    | some e =>
      if e.holder = p then refuse s .state (if e.isPending then 1 else 0)
      else refuse s .locked (portWord (some e.holder))
    | none =>
      let shadow := if empty then Bank.empty else s.active
      replyOk (s.setSession (some { holder := p, shadow, pending := none })) (BitVec.ofNat 16 shadow.total)

/-- R83, R173: the detail of INVALID_WINDOWS, reason in the high byte and index in the low byte. -/
def invalidDetail (r : Reason) (i : Nat) : Word16 := (r.code ++ byteOf i : BitVec 16)

/-- R83 check 6: the shadow's total after the write. -/
def totalAfter (b : Bank) (t : TrackNo) (ws : List Window) : Nat := b.total - (b.list t).length + ws.length

/-- R83, R84. -/
def reqWriteWindows (p : Port) (payload : List Byte) (s : State) : Reply :=
  match trackOfCode (u8 payload 0) with
  | none => refuseRange s 0
  | some t =>
    match s.sessionOf p with
    | none => refuseNoSession s
    | some e =>
      if (s.track t).ownerPort.any (· ≠ p) then refuse s .notOwner (portWord (s.track t).ownerPort)
      else if e.isPending then refuse s .state 1
      else
        match checkList s.counter.modulus (windowsOf payload) with
        | some (r, i) => refuse s .invalidWindows (invalidDetail r i)
        | none =>
          if 96 < totalAfter e.shadow t (windowsOf payload) then
            refuse s .poolFull (BitVec.ofNat 16 (totalAfter e.shadow t (windowsOf payload)))
          else
            let shadow := { e.shadow with lists := e.shadow.lists.put t (windowsOf payload) }
            replyOk (s.setSession (some { e with shadow })) (BitVec.ofNat 16 shadow.total)

/-- R57: the response's payload for one bank and track; `shadow` is the bank code. -/
def windowsPayload (shadow : Bool) (t : TrackNo) (b : Bank) (m : Nat) : List Byte :=
  [boolByte shadow, byteOf t.val] ++ be16 b.tag ++ be32Nat m ++ [byteOf b.total, byteOf (b.list t).length] ++
    windowBytes (b.list t)

/-- R56, R57. Bank 0 ACTIVE, 1 SHADOW. -/
def reqReadWindows (p : Port) (payload : List Byte) (s : State) : Reply :=
  match firstBad [(boolOfCode (u8 payload 0)).isSome, u8 payload 1 < 16] with
  | some i => refuseRange s i
  | none =>
    match trackOfCode (u8 payload 1) with
    | none => refuseRange s 1
    | some t =>
      if boolOfCode (u8 payload 0) = some true then
        match s.sessionOf p with
        | none => refuseNoSession s
        | some e => replyOk s 0 (windowsPayload true t e.shadow s.counter.modulus)
      else replyOk s 0 (windowsPayload false t s.active s.counter.modulus)

/-! ## COMMIT (R86 to R89) -/

/-- R87: the lowest changed track that another port owns. -/
def foreignChange (s : State) (p : Port) (shadow : Bank) : Option TrackNo :=
  (changedTracks shadow s.active).find? fun t => (s.track t).ownerPort.any (· ≠ p)

/-- R89: the pending commit of the parameters, accepted now. -/
def pendingOf (payload : List Byte) (c : Condition) (now : Word32) : PendingCommit :=
  { condition := c
    position := u24 payload 3
    direction := (SwapDir.ofCode (u8 payload 6)).getD .either
    timeout := u16 payload 7
    accepted := now
    deadline := if u16 payload 7 = 0 then none else some (now + BitVec.ofNat 32 (u16 payload 7 * 1000))
    tag := word16 payload 0 }

def reqCommit (p : Port) (payload : List Byte) (s : State) : Reply :=
  match firstBad (commitInRange payload s.counter.modulus) with
  | some i => refuseRange s i
  | none =>
    match s.sessionOf p with
    | none => refuseNoSession s
    | some e =>
      match foreignChange s p e.shadow with
      | some t => refuse s .notOwner (BitVec.ofNat 16 t.val)
      | none =>
        if e.isPending then refuse s .state 1
        else
          let changed := BitVec.ofNat 16 (changedTracks e.shadow s.active).length
          match (conditionOfCode (u8 payload 2)).getD none with
          | none => replyOk (swapWith e (word16 payload 0) s) changed
          | some c => replyPending (s.setSession (some { e with pending := some (pendingOf payload c s.time) })) changed

/-! ## ABORT-EDIT (R98, R99). Option 0 END, 1 WITHDRAW -/

def reqAbortEdit (p : Port) (payload : List Byte) (s : State) : Reply :=
  match boolOfCode (u8 payload 0) with
  | none => refuseRange s 0
  | some withdraw =>
    match s.sessionOf p with
    | none => refuseNoSession s
    | some e =>
      if withdraw then
        if e.isPending then replyOk (withdrawCommit 1 s) else refuse s .state 0
      else replyOk (endSession s)

end Sys2Proof.Machine
end

