-- ==== Sys2Proof/Machine/StoreRequests.lean ====
section
/-! DEFINITION. What the program store answers: STORE-SLOT, ERASE-SLOT, LOAD-SLOT and READ-SLOT (06). -/

namespace Sys2Proof.Machine

/-- R104, R108, R110: the store is BUSY; the detail is the slot in flight. -/
def refuseBusy (s : State) (o : StoreOp) : Reply := refuse s .storeBusy (BitVec.ofNat 16 o.slot.val)

/-- R104: no generation greater than the highest VALID one can be given. -/
def exhausted (slots : Table 4 Slot) : Option SlotNo :=
  match highestValid slots with
  | some b => if b.generation = 0xFFFFFFFF then some b.slot else none
  | none => none

/-- R104, R105. -/
def reqStoreSlot (p : Port) (payload : List Byte) (s : State) : Reply :=
  match firstBad [u8 payload 0 < 4, (boolOfCode (u8 payload 1)).isSome] with
  | some i => refuseRange s i
  | none =>
    match slotOfCode (u8 payload 0) with
    | none => refuseRange s 0
    | some i =>
      if s.counter.claim ≠ some p then refuseNoClaim s
      else
        match s.store.op with
        | some o => refuseBusy s o
        | none =>
          match exhausted s.store.slots with
          | some j => refuse s .slotState (BitVec.ofNat 16 j.val)
          | none =>
            let image := snapshot s ((boolOfCode (u8 payload 1)).getD false)
            replyPending (startStore s i (.writing image) .store p) (image.generation.setWidth 16)

/-- R108. -/
def reqEraseSlot (p : Port) (payload : List Byte) (s : State) : Reply :=
  match slotOfCode (u8 payload 0) with
  | none => refuseRange s 0
  | some i =>
    if s.counter.claim ≠ some p then refuseNoClaim s
    else
      match s.store.op with
      | some o => refuseBusy s o
      | none => replyPending (startStore s i .erasing .erase p)

/-- R110, R111. -/
def reqLoadSlot (p : Port) (payload : List Byte) (s : State) : Reply :=
  match slotOfCode (u8 payload 0) with
  | none => refuseRange s 0
  | some i =>
    match s.sessionOf p with
    | none => refuseNoSession s
    | some e =>
      if e.isPending then refuse s .state 1
      else
        match s.store.op with
        | some o => refuseBusy s o
        | none =>
          match (s.slot i).validImage with
          | none => refuse s .slotState ((s.slot i).code.setWidth 16)
          | some g =>
            if g.modulus ≠ s.counter.modulus then refuse s .mismatch 0
            else
              let shadow : Bank := { lists := g.lists, tag := g.tag }
              replyOk (s.setSession (some { e with shadow })) (BitVec.ofNat 16 shadow.total)

/-- R112: what READ-SLOT reports of a slot, VALID and WRITING alike from their image. -/
def slotPart : Slot → List Byte
  | .valid g | .writing g =>
    be32 g.generation ++ [boolByte g.boot] ++ be16 g.tag ++ be32Nat g.modulus ++ [byteOf (totalOf g.lists)]
  | .empty | .damaged _ | .erasing => List.replicate 12 0

def slotPayload (i : SlotNo) (x : Slot) : List Byte := byteOf i.val :: x.code :: slotPart x

/-- R112. -/
def reqReadSlot (_p : Port) (payload : List Byte) (s : State) : Reply :=
  match slotOfCode (u8 payload 0) with
  | none => refuseRange s 0
  | some i => replyOk s 0 (slotPayload i (s.slot i))

end Sys2Proof.Machine
end

