-- ==== Sys2Proof/Machine/TrackRequests.lean ====
section
/-! DEFINITION. What the track unit answers: CLAIM-TRACKS, RELEASE-TRACKS, SET-TRACK and READ-TRACKS (04, 09). -/

namespace Sys2Proof.Machine

/-! ## CLAIM-TRACKS (R61, R62) -/

/-- The lowest track of the mask that another port owns. -/
def ownedByOther (s : State) (p : Port) (mask : Word16) : Option TrackNo :=
  (Table.numbers 16).find? fun t => inMask mask t && (s.track t).ownerPort.any (· ≠ p)

/-- R61: is the track locked against port `p` by a pending commit of another port? -/
def State.lockedAgainst (s : State) (p : Port) (t : TrackNo) : Bool :=
  s.session.any fun e => e.isPending && e.holder ≠ p && e.shadow.list t ≠ s.active.list t

/-- The lowest free track of the mask that is locked against the port. -/
def lockedTrack (s : State) (p : Port) (mask : Word16) : Option TrackNo :=
  (Table.numbers 16).find? fun t => inMask mask t && (s.track t).owner.isNone && s.lockedAgainst p t

/-- Is the track of the mask free, so newly claimed? -/
def newlyClaimed (s : State) (mask : Word16) (t : TrackNo) : Bool := inMask mask t && (s.track t).owner.isNone

def reqClaimTracks (p : Port) (payload : List Byte) (s : State) : Reply :=
  let mask := word16 payload 0
  if mask = 0 then refuseRange s 0
  else
    match ownedByOther s p mask with
    | some t => refuse s .owned (BitVec.ofNat 16 t.val)
    | none =>
      match lockedTrack s p mask with
      | some t => refuse s .locked (BitVec.ofNat 16 t.val)
      | none =>
        let claimed := s.setTracks (Table.build fun t => if inMask mask t then (s.track t).claimed p else s.track t)
        let new := tracksWhere (newlyClaimed s mask)
        replyOk
          (produceIf (! new.isEmpty) (ownerChangedEvent false (maskOf (newlyClaimed s mask)) none (some p) 0) claimed)
          (BitVec.ofNat 16 new.length)

/-! ## RELEASE-TRACKS (R64) -/

/-- The lowest track of the mask that the caller does not own. -/
def notOwned (s : State) (p : Port) (mask : Word16) : Option TrackNo :=
  (Table.numbers 16).find? fun t => inMask mask t && ! s.owns p t

def reqReleaseTracks (p : Port) (payload : List Byte) (s : State) : Reply :=
  let mask := word16 payload 0
  if mask = 0 then refuseRange s 0
  else
    match notOwned s p mask with
    | some t => refuse s .notOwner (BitVec.ofNat 16 t.val)
    | none => replyOk (freeTracks (inMask mask) p 1 s)

/-! ## SET-TRACK (R67, R68) -/

def reqSetTrack (p : Port) (payload : List Byte) (s : State) : Reply :=
  match firstBad (trackInRange payload) with
  | some i => refuseRange s i
  | none =>
    match trackOfCode (u8 payload 0) with
    | none => refuseRange s 0
    | some t =>
      if s.owns p t then
        replyOk
          (reevaluate .mode [t] (s.setTrack t ((s.track t).configured s.monitor.speed p (trackParams payload))))
      else refuse s .notOwner (portWord (s.track t).ownerPort)

/-! ## READ-TRACKS (R169, R177) -/

def trackEntry (t : Track) : List Byte :=
  [portByte t.ownerPort, t.effective.code, boolByte t.level ||| (if t.pin then 2 else 0), t.orphan.code] ++
    be16Nat t.lead ++ [boolByte t.runUnref]

def tracksPayload (s : State) : List Byte := (Table.numbers 16).flatMap fun t => trackEntry (s.track t)

def reqReadTracks (_p : Port) (_payload : List Byte) (s : State) : Reply := replyOk s 0 (tracksPayload s)

end Sys2Proof.Machine
end

