-- ==== Sys2Proof/Machine/Admission.lean ====
section
/-! DEFINITION. The path of a request (09): admission, and the reception of characters that leads to it (08, 8.2 to 8.4). -/

namespace Sys2Proof.Machine

/-! ## Admission (Table 9-1) -/

/-- The block that owns the state the request names answers it. -/
def handle (r : Request) (p : Port) (payload : List Byte) (s : State) : Reply :=
  match r with
  | .identify => reqIdentify p payload s
  | .openPort => reqOpen p payload s
  | .closePort => reqClose p payload s
  | .readStatus => reqReadStatus p payload s
  | .clearFault => reqClearFault p payload s
  | .restart => reqRestart p payload s
  | .claimAxis => reqClaimAxis p payload s
  | .releaseAxis => reqReleaseAxis p payload s
  | .preset => reqPreset p payload s
  | .cancelPreset => reqCancelPreset p payload s
  | .setAxis => reqSetAxis p payload s
  | .readAxis => reqReadAxis p payload s
  | .clearAxisFault => reqClearAxisFault p payload s
  | .claimTracks => reqClaimTracks p payload s
  | .releaseTracks => reqReleaseTracks p payload s
  | .setTrack => reqSetTrack p payload s
  | .readTracks => reqReadTracks p payload s
  | .openEdit => reqOpenEdit p payload s
  | .writeWindows => reqWriteWindows p payload s
  | .readWindows => reqReadWindows p payload s
  | .commit => reqCommit p payload s
  | .abortEdit => reqAbortEdit p payload s
  | .storeSlot => reqStoreSlot p payload s
  | .eraseSlot => reqEraseSlot p payload s
  | .loadSlot => reqLoadSlot p payload s
  | .readSlot => reqReadSlot p payload s
  | .subscribe => reqSubscribe p payload s
  | .fetchEvents => reqFetchEvents p payload s

/-- R158: is the request admitted in the port state? A code that names none needs an OPEN port. -/
def stateAdmits (st : PortState) (r : Option Request) : Bool :=
  match st with
  | .opened => true
  | .expired => r = some .openPort || r = some .identify || r = some .closePort
  | .closed => r = some .openPort || r = some .identify

/-- Steps 3 to 8 of Table 9-1. -/
def admission (p : Port) (code : Byte) (payload : List Byte) (s : State) : Reply :=
  if stateAdmits (s.port p).state (Request.ofCode code) then
    match Request.ofCode code with
    | none => refuse s .unknownRequest (code.setWidth 16)
    | some r =>
      if r.lengthOk payload.length then handle r p payload s else refuse s .length r.lengthDetail
  else refuse s .notOpen 0

/-- R146: the response the retry cache holds for this frame, if it is a repeat. -/
def State.cached (s : State) (p : Port) (seq code : Byte) (check : Word16) : Option Response :=
  ((s.port p).cache.filter fun c => c.seq = seq && c.code = code && c.check = check).map Cache.response

/-- R146: the cached response is sent again, character for character, and the replay counted. -/
def sendReplay (p : Port) (x : Response) (s : State) : State :=
  s.setPort p { s.port p with replays := satInc (s.port p).replays, tx := some x }

/-- R157: the port unit takes a valid frame as one event. -/
def takeFrame (p : Port) (seq code : Byte) (payload : List Byte) (check : Word16) (s : State) : State :=
  let timed := restartTimer p s
  match timed.cached p seq code check with
  | some x => sendReplay p x timed
  | none => finish p seq code check (timed.isOpen p) (admission p code payload timed) timed.time

/-! ## Reception (R138 to R142) -/

def State.setPhase (s : State) (p : Port) (x : Phase) : State := s.setPort p { s.port p with phase := x }

/-- Adds one to the frame error counter and returns the receiver to HUNTING. -/
def frameErrorAt (p : Port) (s : State) : State :=
  s.setPort p { s.port p with frameErrors := satInc (s.port p).frameErrors, phase := .hunting }

/-- How far a frame is after these characters, the delimiter not among them (R139). -/
inductive Progress
  | more
  | badLength
  | complete (seq code : Byte) (payload : List Byte) (check : Word16)
deriving DecidableEq, Repr

def progress : List Byte → Progress
  | seq :: code :: length :: rest =>
    if 160 < length.toNat then .badLength
    else if rest.length < length.toNat + 2 then .more
    else .complete seq code (rest.take length.toNat) (rest.getD length.toNat 0 ++ rest.getD (length.toNat + 1) 0)
  | _ => .more

/-- R141: a completed frame is valid when its check bytes are the CRC of what it carries; otherwise it is a check error. -/
def judgeFrame (p : Port) (seq code : Byte) (payload : List Byte) (check : Word16) (s : State) : State :=
  if check = requestCheck seq code payload then takeFrame p seq code payload check (s.setPhase p .hunting)
  else s.setPort p { s.port p with checkErrors := satInc (s.port p).checkErrors, phase := .hunting }

/-- A character is taken in HUNTING (R139, R142). -/
def charHunting (p : Port) (b : Byte) (s : State) : State :=
  if b = 0xD1 then
    if (s.port p).tx.isSome then
      s.setPort p { s.port p with overruns := satInc (s.port p).overruns, phase := .skipping [] }
    else s.setPhase p (.receiving [])
  else s

/-- A character is taken in RECEIVING, after `chars` (R139, R141). -/
def charReceiving (p : Port) (chars : List Byte) (s : State) : State :=
  match progress chars with
  | .more => s.setPhase p (.receiving chars)
  | .badLength => frameErrorAt p s
  | .complete seq code payload check => judgeFrame p seq code payload check s

/-- A character is taken in SKIPPING (R142): the overrun frame ends with no further count. -/
def charSkipping (p : Port) (chars : List Byte) (s : State) : State :=
  match progress chars with
  | .more => s.setPhase p (.skipping chars)
  | .badLength | .complete .. => s.setPhase p .hunting

/-- The line has returned to 1: a character has stood on it. -/
def State.lineHigh (s : State) (p : Port) : State := s.setPort p { s.port p with line := .high }

/-- The line is in the low period of a character whose stop bit read 0. -/
def State.lineFaulty (s : State) (p : Port) : State := s.setPort p { s.port p with line := .lowFault }

/-- The receiver takes one character. While the ports do not receive, the character is neither taken nor counted (R117, R155);
all it shows is that the line has returned to 1. -/
def receiveChar (p : Port) (s : State) (b : Byte) : State :=
  if s.portsReceive then
    match (s.port p).phase with
    | .hunting => charHunting p b (s.lineHigh p)
    | .receiving chars => charReceiving p (chars ++ [b]) (s.lineHigh p)
    | .skipping chars => charSkipping p (chars ++ [b]) (s.lineHigh p)
  else s.lineHigh p

/-- R140: a silence of more than 3 character times. In HUNTING silence has no limit. -/
def silence (p : Port) (s : State) : State :=
  if s.portsReceive then
    match (s.port p).phase with
    | .hunting => s
    | .receiving _ => frameErrorAt p s
    | .skipping _ => s.setPhase p .hunting
  else s

/-- R138: a character whose stop bit reads 0. While the ports do not receive it is not counted, and what stays on record is that
the line is low: the break of that low period has no character fault to count (R117, R155). -/
def charFault (p : Port) (s : State) : State :=
  if s.portsReceive then
    match (s.port p).phase with
    | .hunting | .receiving _ => frameErrorAt p (s.lineFaulty p)
    | .skipping _ => (s.lineFaulty p).setPhase p .hunting
  else s.lineFaulty p

/-- R137, R138: a character whose stop bit reads 1 is taken; one whose stop bit reads 0 is a character fault. -/
def receiveCharacter (p : Port) (s : State) (c : LineCharacter) : State :=
  if c.stop then receiveChar p s c.data else charFault p s

/-- These bits stand on the receive line, from an idle line on and with no silence over the gap limit between characters. -/
def receiveLine (p : Port) (bits : List Bool) (s : State) : State := (readLine bits).foldl (receiveCharacter p) s

/-- Characters arrive one after the other, as the line carries them (R137). -/
def receiveChars (p : Port) (chars : List Byte) (s : State) : State := receiveLine p (lineBits chars) s

/-- R143: what the break does by port state. -/
def breakAt (p : Port) (s : State) : State :=
  match (s.port p).state with
  | .opened => portReset p .lineBreak s
  | .expired | .closed => s.setPort p (s.port p).closeExpired

/-- The break of the low period in progress is taken, once. -/
def breakOnce (p : Port) (s : State) : State := (breakAt p s).setPort p { (breakAt p s).port p with line := .lowBreak }

/-- R143: the receive line has been at 0 for 2 ms. Its low period began with a character fault, which is counted here where
none is on record (log 15); one low period gives one break. Where the fault came before reception it is on record and was not
counted (R117), and the break counts nothing either. Before the load has ended no port is in service, and the break is only
noted (log 12). -/
def takeBreak (p : Port) (s : State) : State :=
  if s.inService then
    match (s.port p).line with
    | .lowBreak => s
    | .lowFault => breakOnce p s
    | .high => breakOnce p (charFault p s)
  else s.setPort p { s.port p with line := .lowBreak }

end Sys2Proof.Machine
end

