-- ==== Sys2Proof/Machine/RequestCommands.lean ====
section
/-! DEFINITION. The request commands. A request command is the request's frame arriving character by character at its port
(R172): a receiver that hunts with its transmitter idle takes it as one valid frame (R141), one that is responding skips it as an
overrun (R142), and `handle` gives each request its meaning in the chapter that owns its state. -/

namespace Sys2Proof.Machine

/-- What a command answers. -/
abbrev Result := Host.Outcome State Fault Refusal

/-- IDENTIFY (R165): its frame arrives at port `p`; the request is `handle .identify`. -/
def execIdentify (p : Port) (seq : Byte) (payload : List Byte) (s : State) : Result :=
  .next (receiveChars p (requestChars seq (Request.code .identify) payload) s)

/-- OPEN (R149): its frame arrives at port `p`; the request is `handle .openPort`. -/
def execOpenPort (p : Port) (seq : Byte) (payload : List Byte) (s : State) : Result :=
  .next (receiveChars p (requestChars seq (Request.code .openPort) payload) s)

/-- CLOSE (R149): its frame arrives at port `p`; the request is `handle .closePort`. -/
def execClosePort (p : Port) (seq : Byte) (payload : List Byte) (s : State) : Result :=
  .next (receiveChars p (requestChars seq (Request.code .closePort) payload) s)

/-- READ-STATUS (R166): its frame arrives at port `p`; the request is `handle .readStatus`. -/
def execReadStatus (p : Port) (seq : Byte) (payload : List Byte) (s : State) : Result :=
  .next (receiveChars p (requestChars seq (Request.code .readStatus) payload) s)

/-- CLEAR-FAULT (R164): its frame arrives at port `p`; the request is `handle .clearFault`. -/
def execClearFault (p : Port) (seq : Byte) (payload : List Byte) (s : State) : Result :=
  .next (receiveChars p (requestChars seq (Request.code .clearFault) payload) s)

/-- RESTART (R155): its frame arrives at port `p`; the request is `handle .restart`. -/
def execRestart (p : Port) (seq : Byte) (payload : List Byte) (s : State) : Result :=
  .next (receiveChars p (requestChars seq (Request.code .restart) payload) s)

/-- CLAIM-AXIS (R11): its frame arrives at port `p`; the request is `handle .claimAxis`. -/
def execClaimAxis (p : Port) (seq : Byte) (payload : List Byte) (s : State) : Result :=
  .next (receiveChars p (requestChars seq (Request.code .claimAxis) payload) s)

/-- RELEASE-AXIS (R12): its frame arrives at port `p`; the request is `handle .releaseAxis`. -/
def execReleaseAxis (p : Port) (seq : Byte) (payload : List Byte) (s : State) : Result :=
  .next (receiveChars p (requestChars seq (Request.code .releaseAxis) payload) s)

/-- PRESET (R16): its frame arrives at port `p`; the request is `handle .preset`. -/
def execPreset (p : Port) (seq : Byte) (payload : List Byte) (s : State) : Result :=
  .next (receiveChars p (requestChars seq (Request.code .preset) payload) s)

/-- CANCEL-PRESET (R20): its frame arrives at port `p`; the request is `handle .cancelPreset`. -/
def execCancelPreset (p : Port) (seq : Byte) (payload : List Byte) (s : State) : Result :=
  .next (receiveChars p (requestChars seq (Request.code .cancelPreset) payload) s)

/-- SET-AXIS (R22): its frame arrives at port `p`; the request is `handle .setAxis`. -/
def execSetAxis (p : Port) (seq : Byte) (payload : List Byte) (s : State) : Result :=
  .next (receiveChars p (requestChars seq (Request.code .setAxis) payload) s)

/-- READ-AXIS (R168): its frame arrives at port `p`; the request is `handle .readAxis`. -/
def execReadAxis (p : Port) (seq : Byte) (payload : List Byte) (s : State) : Result :=
  .next (receiveChars p (requestChars seq (Request.code .readAxis) payload) s)

/-- CLEAR-AXIS-FAULT (R39): its frame arrives at port `p`; the request is `handle .clearAxisFault`. -/
def execClearAxisFault (p : Port) (seq : Byte) (payload : List Byte) (s : State) : Result :=
  .next (receiveChars p (requestChars seq (Request.code .clearAxisFault) payload) s)

/-- CLAIM-TRACKS (R61): its frame arrives at port `p`; the request is `handle .claimTracks`. -/
def execClaimTracks (p : Port) (seq : Byte) (payload : List Byte) (s : State) : Result :=
  .next (receiveChars p (requestChars seq (Request.code .claimTracks) payload) s)

/-- RELEASE-TRACKS (R64): its frame arrives at port `p`; the request is `handle .releaseTracks`. -/
def execReleaseTracks (p : Port) (seq : Byte) (payload : List Byte) (s : State) : Result :=
  .next (receiveChars p (requestChars seq (Request.code .releaseTracks) payload) s)

/-- SET-TRACK (R67): its frame arrives at port `p`; the request is `handle .setTrack`. -/
def execSetTrack (p : Port) (seq : Byte) (payload : List Byte) (s : State) : Result :=
  .next (receiveChars p (requestChars seq (Request.code .setTrack) payload) s)

/-- READ-TRACKS (R169): its frame arrives at port `p`; the request is `handle .readTracks`. -/
def execReadTracks (p : Port) (seq : Byte) (payload : List Byte) (s : State) : Result :=
  .next (receiveChars p (requestChars seq (Request.code .readTracks) payload) s)

/-- OPEN-EDIT (R80): its frame arrives at port `p`; the request is `handle .openEdit`. -/
def execOpenEdit (p : Port) (seq : Byte) (payload : List Byte) (s : State) : Result :=
  .next (receiveChars p (requestChars seq (Request.code .openEdit) payload) s)

/-- WRITE-WINDOWS (R83): its frame arrives at port `p`; the request is `handle .writeWindows`. -/
def execWriteWindows (p : Port) (seq : Byte) (payload : List Byte) (s : State) : Result :=
  .next (receiveChars p (requestChars seq (Request.code .writeWindows) payload) s)

/-- READ-WINDOWS (R56): its frame arrives at port `p`; the request is `handle .readWindows`. -/
def execReadWindows (p : Port) (seq : Byte) (payload : List Byte) (s : State) : Result :=
  .next (receiveChars p (requestChars seq (Request.code .readWindows) payload) s)

/-- COMMIT (R86): its frame arrives at port `p`; the request is `handle .commit`. -/
def execCommit (p : Port) (seq : Byte) (payload : List Byte) (s : State) : Result :=
  .next (receiveChars p (requestChars seq (Request.code .commit) payload) s)

/-- ABORT-EDIT (R98): its frame arrives at port `p`; the request is `handle .abortEdit`. -/
def execAbortEdit (p : Port) (seq : Byte) (payload : List Byte) (s : State) : Result :=
  .next (receiveChars p (requestChars seq (Request.code .abortEdit) payload) s)

/-- STORE-SLOT (R104): its frame arrives at port `p`; the request is `handle .storeSlot`. -/
def execStoreSlot (p : Port) (seq : Byte) (payload : List Byte) (s : State) : Result :=
  .next (receiveChars p (requestChars seq (Request.code .storeSlot) payload) s)

/-- ERASE-SLOT (R108): its frame arrives at port `p`; the request is `handle .eraseSlot`. -/
def execEraseSlot (p : Port) (seq : Byte) (payload : List Byte) (s : State) : Result :=
  .next (receiveChars p (requestChars seq (Request.code .eraseSlot) payload) s)

/-- LOAD-SLOT (R110): its frame arrives at port `p`; the request is `handle .loadSlot`. -/
def execLoadSlot (p : Port) (seq : Byte) (payload : List Byte) (s : State) : Result :=
  .next (receiveChars p (requestChars seq (Request.code .loadSlot) payload) s)

/-- READ-SLOT (R112): its frame arrives at port `p`; the request is `handle .readSlot`. -/
def execReadSlot (p : Port) (seq : Byte) (payload : List Byte) (s : State) : Result :=
  .next (receiveChars p (requestChars seq (Request.code .readSlot) payload) s)

/-- SUBSCRIBE (R126): its frame arrives at port `p`; the request is `handle .subscribe`. -/
def execSubscribe (p : Port) (seq : Byte) (payload : List Byte) (s : State) : Result :=
  .next (receiveChars p (requestChars seq (Request.code .subscribe) payload) s)

/-- FETCH-EVENTS (R128): its frame arrives at port `p`; the request is `handle .fetchEvents`. -/
def execFetchEvents (p : Port) (seq : Byte) (payload : List Byte) (s : State) : Result :=
  .next (receiveChars p (requestChars seq (Request.code .fetchEvents) payload) s)

/-- UNKNOWN_REQUEST (R159): a valid frame arrives; a code that names no request is refused by `admit`. -/
def execUnknownRequest (p : Port) (seq code : Byte) (payload : List Byte) (s : State) : Result :=
  .next (receiveChars p (requestChars seq code payload) s)

/-- REPLAY (R146): a valid frame arrives; `takeFrame` answers from the retry cache when its seq, code and check value are those
held, and takes it as a new request otherwise. -/
def execReplay (p : Port) (seq code : Byte) (payload : List Byte) (s : State) : Result :=
  .next (receiveChars p (requestChars seq code payload) s)

end Sys2Proof.Machine
end

