-- ==== Sys2Proof/Machine/EncoderCommands.lean ====
section
/-! DEFINITION. The commands of the encoder, its receivers and the estimator (01, 02), and the commit deadline (05).

The four decoder commands are one sample of A, B and INDEX each (R3). What a sample gives is decided by the decoder line state
and the input mode; its row names what the sample is given for, and which of two events of one sample is taken first. -/

namespace Sys2Proof.Machine

/-- COUNT_ARRIVAL (R8): a sample, its change of A and B first. -/
def execCountArrival (a b index : Bool) (s : State) : Result := .next (sampleCountFirst a b index s)

/-- COUNT_ERROR (R32): a sample, its change of A and B first. -/
def execCountError (a b index : Bool) (s : State) : Result := .next (sampleCountFirst a b index s)

/-- INDEX_EDGE (R10): a sample, its change of INDEX first. -/
def execIndexEdge (a b index : Bool) (s : State) : Result := .next (sampleIndexFirst a b index s)

/-- DECODER_SAMPLE_WITHOUT_COUNT (R3): a sample, its change of A and B first. -/
def execDecoderSampleWithoutCount (a b index : Bool) (s : State) : Result := .next (sampleCountFirst a b index s)

/-- RECEIVER_FAULT (R33). -/
def execReceiverFault (lines : LineSet) (s : State) : Result := .next (receiversFail lines s)

/-- RECEIVER_HEALTHY (R34). -/
def execReceiverHealthy (lines : LineSet) (s : State) : Result := .next (receiversHeal lines s)

/-- SIGNAL_RESTORED (R34): nothing is restored before the hold has run for 1 ms. -/
def execSignalRestored (s : State) : Result := .next (if s.holdDue then restoreSignal s else s)

/-- PERIOD_END (R28): no period ends before its length has passed. -/
def execPeriodEnd (s : State) : Result := .next (if s.periodDue then closeSamplePeriod s else s)

/-- COMMIT_TIMEOUT (R96), cause TIMEOUT 0: nothing is withdrawn before the deadline. -/
def execCommitTimeout (s : State) : Result := .next (if s.commitDue then withdrawCommit 0 s else s)

end Sys2Proof.Machine
end

