-- ==== Sys2Proof/Machine/LineCommands.lean ====
section
/-! DEFINITION. The commands of the serial lines (08): what arrives on a receive line other than a whole valid frame, the end of
a response, the supervision timer. -/

namespace Sys2Proof.Machine

/-- CHECK_ERROR (R141): a whole frame arrives with the check bytes given. -/
def execCheckError (p : Port) (seq code : Byte) (payload : List Byte) (check : Word16) (s : State) : Result :=
  .next (receiveChars p (frameChars seq code payload check) s)

/-- FRAME_ERROR (R139): a delimiter, a seq, a code and a length byte arrive. -/
def execFrameError (p : Port) (seq code length : Byte) (s : State) : Result :=
  .next (receiveChars p [0xD1, seq, code, length] s)

/-- GAP_LIMIT_EXCEEDED (R140): characters arrive, then silence. -/
def execGapLimitExceeded (p : Port) (chars : List Byte) (s : State) : Result := .next (silence p (receiveChars p chars s))

/-- CHARACTER_FAULT (R138): characters arrive, then one whose stop bit reads 0. -/
def execCharacterFault (p : Port) (chars : List Byte) (s : State) : Result := .next (charFault p (receiveChars p chars s))

/-- OVERRUN (R142): a delimiter arrives. -/
def execOverrun (p : Port) (s : State) : Result := .next (receiveChars p [0xD1] s)

/-- OVERRUN_FRAME_END (R142): the characters that end the overrun frame arrive. -/
def execOverrunFrameEnd (p : Port) (chars : List Byte) (s : State) : Result := .next (receiveChars p chars s)

/-- BREAK (R143). -/
def execLineBreak (p : Port) (s : State) : Result := .next (takeBreak p s)

/-- RESPONSE_COMPLETE (R142): the transmitter returns to IDLE. -/
def execResponseComplete (p : Port) (s : State) : Result := .next (s.setPort p { s.port p with tx := none })

/-- SUPERVISION_EXPIRY (R150): nothing expires before the time has passed. -/
def execSupervisionExpiry (p : Port) (s : State) : Result :=
  .next (if s.supervisionDue p then portReset p .expiry s else s)

end Sys2Proof.Machine
end

