-- ==== Sys2Proof/Machine/PowerCommands.lean ====
section
/-! DEFINITION. The commands of reset, supply, the power-up load, the store's completions and the OE input (01, 04, 06, 08). -/

namespace Sys2Proof.Machine

/-- RESTART_DEVICE_RESET (R155): once the response of an admitted RESTART has been sent, the device reset takes effect. -/
def execRestartDeviceReset (s : State) : Result :=
  .next
    (match s.lifecycle with
     | .restarting p => if (s.port p).tx.isNone then deviceReset s else s
     | _ => s)

/-- RESET_INPUT (R2, 4.6): RESET is asserted. -/
def execResetInput (s : State) : Result := .next (deviceReset s)

/-- LOSS_OF_POWER (R113): the device reset that follows when power returns. -/
def execLossOfPower (s : State) : Result := .next (deviceReset s)

/-- POWER_UP_LOAD (R114): RESET is released, or RESTART's device reset has taken effect. -/
def execPowerUpLoad (straps : BitVec 2) (s : State) : Result :=
  .next (if s.lifecycle = .inReset then beginLoad straps s else s)

/-- POWER_UP_LOAD_END (R116). -/
def execPowerUpLoadEnd (s : State) : Result := .next (if s.lifecycle = .loading then endLoad s else s)

/-- STORE_COMPLETION (R106). -/
def execStoreCompletion (cellsHold : Bool) (s : State) : Result := .next (completeStore cellsHold s)

/-- ERASE_COMPLETION (R109). -/
def execEraseCompletion (s : State) : Result := .next (completeErase s)

/-- R77: a change of the OE input's level changes the OE state, and OUTPUTS_ENABLED or OUTPUTS_DISABLED is produced. Until the
load has ended the state follows the input, the pins stay driven OFF (R59), and no event is produced. -/
def changeOe (level : Bool) (s : State) : State :=
  if s.oe = level then s
  else if s.inService then produce (outputsEvent s level) (drivePins (s.setOe level))
  else s.setOe level

/-- OE_CHANGE (R77): the OE input is at this level. -/
def execOeChange (level : Bool) (s : State) : Result := .next (changeOe level s)

end Sys2Proof.Machine
end

