-- ==== Sys2Proof/Machine/Dispatch.lean ====
section
/-! DEFINITION. The meaning of every command: one arm per row of the table. -/

namespace Sys2Proof.Machine

def exec (i : Instr) (s : State) : Host.Outcome State Fault Refusal :=
  match i with
  | .identify p seq payload => Sys2Proof.Machine.execIdentify p seq payload s
  | .openPort p seq payload => Sys2Proof.Machine.execOpenPort p seq payload s
  | .closePort p seq payload => Sys2Proof.Machine.execClosePort p seq payload s
  | .readStatus p seq payload => Sys2Proof.Machine.execReadStatus p seq payload s
  | .clearFault p seq payload => Sys2Proof.Machine.execClearFault p seq payload s
  | .restart p seq payload => Sys2Proof.Machine.execRestart p seq payload s
  | .claimAxis p seq payload => Sys2Proof.Machine.execClaimAxis p seq payload s
  | .releaseAxis p seq payload => Sys2Proof.Machine.execReleaseAxis p seq payload s
  | .preset p seq payload => Sys2Proof.Machine.execPreset p seq payload s
  | .cancelPreset p seq payload => Sys2Proof.Machine.execCancelPreset p seq payload s
  | .setAxis p seq payload => Sys2Proof.Machine.execSetAxis p seq payload s
  | .readAxis p seq payload => Sys2Proof.Machine.execReadAxis p seq payload s
  | .clearAxisFault p seq payload => Sys2Proof.Machine.execClearAxisFault p seq payload s
  | .claimTracks p seq payload => Sys2Proof.Machine.execClaimTracks p seq payload s
  | .releaseTracks p seq payload => Sys2Proof.Machine.execReleaseTracks p seq payload s
  | .setTrack p seq payload => Sys2Proof.Machine.execSetTrack p seq payload s
  | .readTracks p seq payload => Sys2Proof.Machine.execReadTracks p seq payload s
  | .openEdit p seq payload => Sys2Proof.Machine.execOpenEdit p seq payload s
  | .writeWindows p seq payload => Sys2Proof.Machine.execWriteWindows p seq payload s
  | .readWindows p seq payload => Sys2Proof.Machine.execReadWindows p seq payload s
  | .commit p seq payload => Sys2Proof.Machine.execCommit p seq payload s
  | .abortEdit p seq payload => Sys2Proof.Machine.execAbortEdit p seq payload s
  | .storeSlot p seq payload => Sys2Proof.Machine.execStoreSlot p seq payload s
  | .eraseSlot p seq payload => Sys2Proof.Machine.execEraseSlot p seq payload s
  | .loadSlot p seq payload => Sys2Proof.Machine.execLoadSlot p seq payload s
  | .readSlot p seq payload => Sys2Proof.Machine.execReadSlot p seq payload s
  | .subscribe p seq payload => Sys2Proof.Machine.execSubscribe p seq payload s
  | .fetchEvents p seq payload => Sys2Proof.Machine.execFetchEvents p seq payload s
  | .unknownRequest p seq code payload => Sys2Proof.Machine.execUnknownRequest p seq code payload s
  | .replay p seq code payload => Sys2Proof.Machine.execReplay p seq code payload s
  | .checkError p seq code payload check => Sys2Proof.Machine.execCheckError p seq code payload check s
  | .frameError p seq code length => Sys2Proof.Machine.execFrameError p seq code length s
  | .gapLimitExceeded p chars => Sys2Proof.Machine.execGapLimitExceeded p chars s
  | .characterFault p chars => Sys2Proof.Machine.execCharacterFault p chars s
  | .overrun p => Sys2Proof.Machine.execOverrun p s
  | .lineBreak p => Sys2Proof.Machine.execLineBreak p s
  | .responseComplete p => Sys2Proof.Machine.execResponseComplete p s
  | .supervisionExpiry p => Sys2Proof.Machine.execSupervisionExpiry p s
  | .restartDeviceReset => Sys2Proof.Machine.execRestartDeviceReset s
  | .resetInput => Sys2Proof.Machine.execResetInput s
  | .powerUpLoad straps => Sys2Proof.Machine.execPowerUpLoad straps s
  | .powerUpLoadEnd => Sys2Proof.Machine.execPowerUpLoadEnd s
  | .countArrival a b index => Sys2Proof.Machine.execCountArrival a b index s
  | .countError a b index => Sys2Proof.Machine.execCountError a b index s
  | .indexEdge a b index => Sys2Proof.Machine.execIndexEdge a b index s
  | .receiverFault lines => Sys2Proof.Machine.execReceiverFault lines s
  | .receiverHealthy lines => Sys2Proof.Machine.execReceiverHealthy lines s
  | .signalRestored => Sys2Proof.Machine.execSignalRestored s
  | .periodEnd => Sys2Proof.Machine.execPeriodEnd s
  | .commitTimeout => Sys2Proof.Machine.execCommitTimeout s
  | .storeCompletion cellsHold => Sys2Proof.Machine.execStoreCompletion cellsHold s
  | .eraseCompletion => Sys2Proof.Machine.execEraseCompletion s
  | .oeChange level => Sys2Proof.Machine.execOeChange level s
  | .decoderSampleWithoutCount a b index => Sys2Proof.Machine.execDecoderSampleWithoutCount a b index s
  | .overrunFrameEnd p chars => Sys2Proof.Machine.execOverrunFrameEnd p chars s
  | .lossOfPower => Sys2Proof.Machine.execLossOfPower s

end Sys2Proof.Machine
end

