-- ==== Sys2Proof/Machine/Clock.lean ====
section
/-! DEFINITION. What the part does when no command waits: its clock ticks (R1; log 4). -/

namespace Sys2Proof.Machine

/-- The lowest port whose supervision timer has expired. -/
def expiredPort (s : State) : Option Port := (Table.numbers 4).find? s.supervisionDue

/-- Has the response of an admitted RESTART been sent (R155)? -/
def restartDue (s : State) : Bool :=
  match s.lifecycle with
  | .restarting p => (s.port p).tx.isNone
  | _ => false

/-- What the time base has brought about and the part has not yet taken, in the model's fixed order (log 4). -/
def dueCommand (s : State) : Option Instr :=
  if restartDue s then some .restartDeviceReset
  else if s.holdDue then some .signalRestored
  else
    match expiredPort s with
    | some p => some (.supervisionExpiry p)
    | none =>
      if s.commitDue then some .commitTimeout
      else if s.periodDue then some .periodEnd
      else none

/-- R1: one microsecond passes. The time base stands at 0 from the device reset until the power-up load begins. -/
def advanceTime (s : State) : State := if s.lifecycle = .inReset then s else s.setTime (s.time + 1)

/-- One step on an empty queue: what is due is taken; when nothing is, a microsecond passes. -/
def tick (s : State) : Host.Outcome State Fault Refusal :=
  match dueCommand s with
  | some c => exec c s
  | none => .next (advanceTime s)

/-- The command in front of the queue, or a tick. -/
def stepQueue (s : State) : Host.Outcome State Fault Refusal :=
  match s.pending with
  | [] => tick s
  | c :: rest => exec c { s with pending := rest }

end Sys2Proof.Machine
end

