-- ==== Sys2Proof/Machine/Step.lean ====
section
/-! DEFINITION. One step of the part. -/

namespace Sys2Proof.Machine

/-- The command at the front of the queue is taken with the queue's rest; on an empty queue the clock ticks (log 4). -/
def step (s : State) : Host.Outcome State Fault Refusal := stepQueue s

/-- `s` with the command a word spells put in front of its queue; no row of the table gives bits, so no word spells one. -/
def State.withFetchWord (s : State) (nbits w : Nat) : State :=
  match Sys2Proof.decodeTableWord nbits w with
  | some c => { s with pending := c :: s.pending }
  | none => s

end Sys2Proof.Machine
end

