-- ==== Sys2Proof/WellFormed.lean ====
section
/-! DEFINITION. Well-formed commands: the operands are what the command's row says it is given. A frame's payload is at most 160
bytes (R172), and a row named for what is wrong with a frame carries a frame with which that is wrong. -/

namespace Sys2Proof

open Machine

/-- A payload that a frame can carry (R172). -/
def payloadFits (payload : List Byte) : Bool := payload.length ≤ 160

/-- At least one line is named. -/
def LineSet.someLine (l : LineSet) : Bool := l.a || l.b || l.index

def Instr.wellFormed : Instr → Bool
  | .identify _ _ pl | .openPort _ _ pl | .closePort _ _ pl | .readStatus _ _ pl | .clearFault _ _ pl | .restart _ _ pl
  | .claimAxis _ _ pl | .releaseAxis _ _ pl | .preset _ _ pl | .cancelPreset _ _ pl | .setAxis _ _ pl | .readAxis _ _ pl
  | .clearAxisFault _ _ pl | .claimTracks _ _ pl | .releaseTracks _ _ pl | .setTrack _ _ pl | .readTracks _ _ pl
  | .openEdit _ _ pl | .writeWindows _ _ pl | .readWindows _ _ pl | .commit _ _ pl | .abortEdit _ _ pl
  | .storeSlot _ _ pl | .eraseSlot _ _ pl | .loadSlot _ _ pl | .readSlot _ _ pl | .subscribe _ _ pl
  | .fetchEvents _ _ pl => payloadFits pl
  | .unknownRequest _ _ code pl => payloadFits pl && (Request.ofCode code).isNone
  | .replay _ _ _ pl => payloadFits pl
  | .checkError _ seq code pl check => payloadFits pl && check ≠ requestCheck seq code pl
  | .frameError _ _ _ length => 160 < length.toNat
  | .gapLimitExceeded _ _ | .characterFault _ _ => true
  | .overrun _ | .lineBreak _ | .responseComplete _ | .supervisionExpiry _ => true
  | .restartDeviceReset | .resetInput | .powerUpLoad _ | .powerUpLoadEnd | .lossOfPower => true
  | .countArrival _ _ _ | .countError _ _ _ | .indexEdge _ _ _ | .decoderSampleWithoutCount _ _ _ => true
  | .receiverFault lines | .receiverHealthy lines => lines.someLine
  | .signalRestored | .periodEnd | .commitTimeout => true
  | .storeCompletion _ | .eraseCompletion | .oeChange _ => true
  | .overrunFrameEnd _ chars => ! chars.isEmpty

end Sys2Proof
end

