-- ==== Sys2Proof/Safety.lean ====
section
/-! DEFINITION. The vocabulary of the claims: when a port hears and accepts a request, what it then answers, and the laws that
the specification states for the part as a whole. -/

namespace Sys2Proof.Machine

/-! ## A request that is heard -/

/-- The command that is the request's row: its frame arrives at port `p`. -/
def Request.command (r : Request) (p : Port) (seq : Byte) (payload : List Byte) : Instr :=
  match r with
  | .identify => .identify p seq payload
  | .openPort => .openPort p seq payload
  | .closePort => .closePort p seq payload
  | .readStatus => .readStatus p seq payload
  | .clearFault => .clearFault p seq payload
  | .restart => .restart p seq payload
  | .claimAxis => .claimAxis p seq payload
  | .releaseAxis => .releaseAxis p seq payload
  | .preset => .preset p seq payload
  | .cancelPreset => .cancelPreset p seq payload
  | .setAxis => .setAxis p seq payload
  | .readAxis => .readAxis p seq payload
  | .clearAxisFault => .clearAxisFault p seq payload
  | .claimTracks => .claimTracks p seq payload
  | .releaseTracks => .releaseTracks p seq payload
  | .setTrack => .setTrack p seq payload
  | .readTracks => .readTracks p seq payload
  | .openEdit => .openEdit p seq payload
  | .writeWindows => .writeWindows p seq payload
  | .readWindows => .readWindows p seq payload
  | .commit => .commit p seq payload
  | .abortEdit => .abortEdit p seq payload
  | .storeSlot => .storeSlot p seq payload
  | .eraseSlot => .eraseSlot p seq payload
  | .loadSlot => .loadSlot p seq payload
  | .readSlot => .readSlot p seq payload
  | .subscribe => .subscribe p seq payload
  | .fetchEvents => .fetchEvents p seq payload

/-- The ports receive, the receiver of port `p` hunts and its transmitter is IDLE: the next frame is received whole (R139). -/
abbrev Hears (s : State) (p : Port) : Prop :=
  s.portsReceive = true ∧ (s.port p).phase = .hunting ∧ (s.port p).tx = none

/-- The frame is no repeat of the one in the retry cache (R146). -/
abbrev Fresh (s : State) (p : Port) (seq code : Byte) (payload : List Byte) : Prop :=
  s.cached p seq code (requestCheck seq code payload) = none

/-- The request reaches the block that owns it (R157): it is heard at an OPEN port, is no repeat, and has its length. -/
abbrev Accepts (s : State) (p : Port) (r : Request) (seq : Byte) (payload : List Byte) : Prop :=
  Hears s p ∧ s.isOpen p = true ∧ Fresh s p seq r.code payload ∧ r.lengthOk payload.length = true

/-- The state in which the request is taken: characters have been read on the line, and a running supervision timer starts
anew now (R150). -/
def heard (p : Port) (s : State) : State :=
  s.setPort p { s.port p with line := .high, timer := (s.port p).timer.map fun _ => s.time }

/-- R160, R173: the eight flags of a response that port `p` composes in state `y`. -/
def flagsAt (y : State) (p : Port) : Byte :=
  (if (y.box p).queue ≠ [] then 0x01 else 0) + (if (y.box p).lost ≠ 0 then 0x02 else 0) +
  (if (y.port p).refusal ≠ none then 0x04 else 0) + (if y.monitor.faultRecord ≠ none then 0x08 else 0) +
  (if y.counter.ref = .referenced then 0x10 else 0) +
  (if (y.session.map EditSession.holder) = some p then 0x20 else 0) +
  (if (y.session.bind EditSession.pending) ≠ none then 0x40 else 0) + (if y.store.op ≠ none then 0x80 else 0)

/-- State `y` once port `p` has composed its response in it, sends it, and keeps it in the retry cache (R144, R147, R160). -/
def sent (y : State) (p : Port) (seq code : Byte) (check : Word16) (status : Status) (detail : Word16) (out : List Byte) :
    State :=
  let x : Response := { seq, code, status, detail, flags := flagsAt y p, payload := out }
  y.setPort p { y.port p with tx := some x, cache := some { seq, code, check, response := x } }

/-- The request's command answers a next state: `y`, with this response on its way. -/
def Completes (s : State) (p : Port) (r : Request) (seq : Byte) (payload : List Byte) (y : State) (status : Status)
    (detail : Word16) (out : List Byte) : Prop :=
  exec (r.command p seq payload) s =
    .next (sent y p seq r.code (requestCheck seq r.code payload) status detail out)

/-- What a refusal at an OPEN port leaves in the record (R163). -/
def refusedAt (p : Port) (seq code : Byte) (status : Status) (detail : Word16) (y : State) : State :=
  y.setPort p
    { y.port p with
      refusals := satInc (y.port p).refusals
      refusal := some ((y.port p).refusal.getD { status, code, detail, seq, time := y.time }) }

/-- The request's command answers a next state in which it has been refused and nothing else has changed (R157). -/
def Refuses (s : State) (p : Port) (r : Request) (seq : Byte) (payload : List Byte) (status : Status) (detail : Word16) :
    Prop :=
  Completes s p r seq payload (refusedAt p seq r.code status detail (heard p s)) status detail []

/-! ## Tracks of a set -/

/-- `t` is the lowest track of the set. -/
def Lowest (f : TrackNo → Bool) (t : TrackNo) : Prop := f t = true ∧ ∀ u, u < t → f u = false

/-- The set has no track. -/
def NoTrack (f : TrackNo → Bool) : Prop := ∀ t, f t = false

/-- How many tracks the set has. -/
def trackCount (f : TrackNo → Bool) : Nat := (tracksWhere f).length

/-- Another port owns the track. -/
def State.foreign (s : State) (p : Port) (t : TrackNo) : Bool := (s.track t).ownerPort.any (· ≠ p)

/-- The track's shadow list differs from its active list (R46). -/
def State.changed (s : State) (e : EditSession) (t : TrackNo) : Bool := e.shadow.list t ≠ s.active.list t

/-! ## Faults and swaps, as the rules state them -/

/-- R95: the commit with this tag swaps: the active bank takes the shadow's lists and the tag, the session ends, SWAP_DONE is
produced, and every track is re-evaluated with cause SWAP. -/
def swapped (e : EditSession) (tag : Word16) (s : State) : State :=
  reevaluateAll .swap
    (produce
      { kind := .swapDone, subject := byteOf e.holder.val, detail := tag.setWidth 24, extra := s.counter.turns.setWidth 24,
        direct := some e.holder }
      { s with active := { lists := e.shadow.lists, tag := tag }, session := none })

/-- R38: the fault record after a fault of this kind. -/
def recorded (kind : FaultKind) (s : State) : FaultRecord :=
  match s.monitor.faultRecord with
  | none => { kind := kind, time := s.time, p := s.counter.p, turns := s.counter.turns, seen := kind.seenBit }
  | some f => { f with seen := f.seen ||| kind.seenBit }

/-- R31, steps 1 and 2: the record takes the fault, and AXIS_FAULT is produced. -/
def reported (kind : FaultKind) (detail : Word24) (s : State) : State :=
  produce
    { kind := .axisFault, subject := kind.code, detail := detail, extra := s.counter.turns.setWidth 24, direct := none }
    { s with monitor := { s.monitor with faultRecord := some (recorded kind s) } }

/-- R14: the reference falls to FAULTED, r is cleared, and REFERENCE_CHANGED is produced. -/
def fallen (kind : FaultKind) (s : State) : State :=
  produce
    { kind := .referenceChanged, subject := 2, detail := kind.code.setWidth 24, extra := s.counter.turns.setWidth 24,
      direct := none }
    { s with counter := { s.counter with ref := .faulted, r := none } }

/-- R31: a COUNT_ERROR, SIGNAL_LOST or INDEX_DRIFT is raised. -/
def raised (kind : FaultKind) (detail : Word24) (s : State) : State :=
  if s.counter.ref = .faulted then reported kind detail s
  else reevaluateAll .reference (fallen kind (reported kind detail s))

/-! ## The validity of a list, as R42 states it -/

/-- Two windows of a list cover no common position. -/
def disjointWindows (v w : Window) : Prop := ∀ e, ¬ (v.covers e = true ∧ w.covers e = true)

/-- R42: the conditions of a valid window list on the ring of `m` counts. -/
def ValidList (m : Nat) (ws : List Window) : Prop :=
  ws.length ≤ 12 ∧
  (∀ w ∈ ws, w.on < m ∧ w.off < m) ∧
  (∀ w ∈ ws, w.on ≠ w.off) ∧
  ws.Pairwise (fun v w => v.on < w.on) ∧
  ws.Pairwise disjointWindows ∧
  (∀ w ∈ ws.dropLast, w.wraps = false)

/-- Table 3-2: window `i` of the list fails the test of this reason. TOO_MANY is no test of a window. -/
def FailsTest (m : Nat) (ws : List Window) (i : Nat) : Reason → Prop
  | .tooMany => False
  | .edgeRange => ∃ w, ws[i]? = some w ∧ (m ≤ w.on ∨ m ≤ w.off)
  | .zeroWidth => ∃ w, ws[i]? = some w ∧ w.on = w.off
  | .wrapNotLast => ∃ w, ws[i]? = some w ∧ w.off < w.on ∧ i + 1 < ws.length
  | .order => ∃ v w, 0 < i ∧ ws[i - 1]? = some v ∧ ws[i]? = some w ∧ w.on ≤ v.on
  | .overlap => ∃ w, ws[i]? = some w ∧ ∃ j v, j < i ∧ ws[j]? = some v ∧ ¬ disjointWindows v w

/-! ## The laws of the part -/

/-- R2, R59, R117, R136: until the power-up load has ended no port is OPEN, nothing is held, the position stands at its default
and every line is driven OFF. -/
def bootLaw (s : State) : Prop :=
  s.inService = false →
    (∀ p, (s.port p).state = .closed) ∧ s.counter.p = 0 ∧ s.counter.ref = .unreferenced ∧ s.counter.r = none ∧
    s.counter.armed = none ∧ s.counter.claim = none ∧ s.session = none ∧ s.store.op = none ∧ s.monitor.speed = 0 ∧
    s.monitor.signalLoss = false ∧ s.monitor.faultRecord = none ∧
    ∀ t, (s.track t).owner = none ∧ (s.track t).shift = 0 ∧ (s.track t).pin = false

/-- R76: a line is driven ON exactly while OE is active and the track's level is ON. -/
def pinLaw (s : State) : Prop :=
  s.inService = true → ∀ t, (s.track t).pin = ((s.track t).level && s.oe)

/-- R70: every level is the one that Table 4-2 gives. -/
def levelLaw (s : State) : Prop := s.inService = true → ∀ t, (s.track t).level = s.levelOf t

/-- R52: every shift is the lead of its track at the speed in force. -/
def shiftLaw (s : State) : Prop := ∀ t, (s.track t).shift = leadShift s.monitor.speed (s.track t).lead

/-- R15: r is present only while REFERENCED. -/
def referenceLaw (s : State) : Prop := s.counter.r.isSome = true → s.counter.ref = .referenced

/-- R124: a queue holds at most 32 records, and a lost count above 0 is found only with a full queue. -/
def mailLaw (s : State) : Prop :=
  ∀ p, (s.box p).queue.length ≤ 32 ∧ ((s.box p).lost ≠ 0 → (s.box p).queue.length = 32)

/-- R11, R60, R79, R107, R148: whoever holds something is OPEN, and a port that is not OPEN has an empty queue, no subscription
and an end cause. -/
def holdersLaw (s : State) : Prop :=
  (∀ p, s.counter.claim = some p → s.isOpen p = true) ∧
  (∀ a, s.counter.armed = some a → s.counter.claim = some a.port) ∧
  (∀ t p, (s.track t).ownerPort = some p → s.isOpen p = true) ∧
  (∀ e, s.session = some e → s.isOpen e.holder = true) ∧
  (∀ o p, s.store.op = some o → o.requester = some p → s.isOpen p = true) ∧
  (∀ p, s.isOpen p = false → s.box p = Mailbox.reset) ∧
  (∀ p, (s.port p).endCause = .none ↔ s.isOpen p = true)

/-- R47: a bank on the ring of `m` counts. -/
def bankLaw (m : Nat) (b : Bank) : Prop := (∀ t, checkList m (b.list t) = none) ∧ b.total ≤ 96

/-- R50, R47, R82, R103: the position and every kept position lie on the ring, both banks are valid on it, and every VALID slot
holds an image that is. -/
def ringLaw (s : State) : Prop :=
  (2 ≤ s.counter.modulus ∧ s.counter.modulus ≤ 16777216) ∧
  s.counter.p < s.counter.modulus ∧
  (∀ r, s.counter.r = some r → r < s.counter.modulus) ∧
  (∀ a, s.counter.armed = some a → a.value < s.counter.modulus) ∧
  bankLaw s.counter.modulus s.active ∧
  (∀ e, s.session = some e →
    bankLaw s.counter.modulus e.shadow ∧ ∀ pc, e.pending = some pc → pc.position < s.counter.modulus) ∧
  ∀ i g, s.slot i = .valid g → g.wellMade = true

/-- The slot is in WRITING or ERASING. -/
def Slot.inFlight : Slot → Bool
  | .writing _ | .erasing => true
  | _ => false

/-- The slot's state is the one that an operation of this kind gives it. -/
def Slot.matchesKind (x : Slot) (k : StoreKind) : Bool :=
  match x, k with
  | .writing _, .store | .erasing, .erase => true
  | _, _ => false

/-- R102: VALID slots carry different generations, also from that of an image in writing; while BUSY exactly the slot named is
in WRITING or ERASING, while IDLE none is. -/
def storeLaw (s : State) : Prop :=
  (∀ i j g h, s.slot i = .valid g → s.slot j = .valid h → g.generation = h.generation → i = j) ∧
  (∀ i j g h, s.slot i = .writing g → s.slot j = .valid h → g.generation ≠ h.generation) ∧
  (s.store.op = none → ∀ i, (s.slot i).inFlight = false) ∧
  ∀ o, s.store.op = some o →
    (s.slot o.slot).matchesKind o.kind = true ∧ ∀ i, i ≠ o.slot → (s.slot i).inFlight = false

/-- R87: while a commit is pending, every track whose shadow list differs from its active list is owned by the committing port
or has no owner. -/
def commitLaw (s : State) : Prop :=
  ∀ e, s.session = some e → e.isPending = true →
    ∀ t, s.changed e t = true → (s.track t).ownerPort = none ∨ (s.track t).ownerPort = some e.holder

end Sys2Proof.Machine
end

