-- ==== Sys2Proof/Certificates/Slice0/Obligations.lean ====
section
/-! DEFINITION. The statements for the provers. `Completes` says that a request's command answers a next state with the request's
own effect; `Refuses` that it answers one in which only the refusal shows. `heard p s` is `s` with a running supervision timer of
port `p` started anew. Every equality of states states the frame: what it does not name is as in `s`. -/

open Sys2Proof Sys2Proof.Machine

/-! ## The queue of commands and the clock -/

/-- A step takes the command at the front of the queue. -/
def Obligations.StepTakesTheFrontCommand : Prop :=
  ∀ (c : Instr) (rest : List Instr) (s : State), s.pending = c :: rest → step s = exec c { s with pending := rest }

/-- R1, R26, R34, R96, R150, R155, as log 4 lays them out on an empty queue: of what the time base has brought about the first in
the model's order is taken (an admitted RESTART whose response has been sent, the restore hold, the lowest expired port, the
deadline of the pending commit, the period end); where there is nothing, one microsecond passes; before the load begins the time
base stands. -/
def Obligations.IdleStepIsOneTickOfTheClock : Prop :=
  ∀ s : State, s.pending = [] →
    let restart : Prop := ∃ p, s.lifecycle = .restarting p ∧ (s.port p).tx = none
    let restored : Prop :=
      s.monitor.signalLoss = true ∧ s.monitor.inFault = ⟨false, false, false⟩ ∧
        ∃ start, s.monitor.restoreHold = some start ∧ 1000 ≤ (s.time - start).toNat
    let expired : Port → Prop := fun p =>
      s.isOpen p = true ∧ (s.port p).supervision ≠ 0 ∧
        ∃ start, (s.port p).timer = some start ∧ (s.port p).supervision * 1000 ≤ (s.time - start).toNat
    let deadline : Prop :=
      ∃ e pc, s.session = some e ∧ e.pending = some pc ∧ pc.timeout ≠ 0 ∧
        pc.timeout * 1000 ≤ (s.time - pc.accepted).toNat
    let period : Prop :=
      s.inService = true ∧ s.monitor.periodLength * 1000 ≤ (s.time - s.monitor.periodStart).toNat
    (restart → step s = exec .restartDeviceReset s) ∧
    (¬ restart → restored → step s = exec .signalRestored s) ∧
    (∀ p, ¬ restart → ¬ restored → expired p → (∀ q, q < p → ¬ expired q) → step s = exec (.supervisionExpiry p) s) ∧
    (¬ restart → ¬ restored → (∀ p, ¬ expired p) → deadline → step s = exec .commitTimeout s) ∧
    (¬ restart → ¬ restored → (∀ p, ¬ expired p) → ¬ deadline → period → step s = exec .periodEnd s) ∧
    (¬ restart → ¬ restored → (∀ p, ¬ expired p) → ¬ deadline → ¬ period →
      (s.lifecycle ≠ .inReset → step s = .next { s with time := s.time + 1 }) ∧
      (s.lifecycle = .inReset → step s = .next s))

/-- No command stops the part, and none touches the commands that wait. -/
def Obligations.EveryCommandAnswersANextState : Prop :=
  ∀ (c : Instr) (s : State), ∃ t, exec c s = .next t ∧ t.pending = s.pending

/-! ## Formats -/

/-- R171: the check value, what it covers, and where it is used: a request frame is judged by it, the retry cache keeps it as
received, a response carries its own. -/
def Obligations.CheckValueIsTheCrcOfR171 : Prop :=
  (∀ bytes, crc bytes = bytes.foldl crcByte 0xFFFF) ∧
  (∀ r b, crcByte r b = Nat.repeat crcBit 8 (r ^^^ (b.setWidth 16 <<< 8))) ∧
  (∀ r, crcBit r = if r.msb then (r <<< 1) ^^^ 0x1021 else r <<< 1) ∧
  crc [0x31, 0x32, 0x33, 0x34, 0x35, 0x36, 0x37, 0x38, 0x39] = 0x29B1 ∧
  (∀ bytes, crc (bytes ++ be16 (crc bytes)) = 0) ∧
  (∀ seq code payload,
    requestChars seq code payload =
      [0xD1] ++ ([seq, code, byteOf payload.length] ++ payload) ++
        be16 (crc ([seq, code, byteOf payload.length] ++ payload))) ∧
  (∀ x : Response, x.chars = [0xD2] ++ x.covered ++ be16 (crc x.covered)) ∧
  (∀ x : Response,
    x.covered =
      [x.seq, x.code, x.status.code] ++ be16 x.detail ++ [x.flags, byteOf x.payload.length] ++ x.payload) ∧
  (∀ (p : Port) (seq code : Byte) (payload : List Byte) (check : Word16) (s : State),
    (check = crc ([seq, code, byteOf payload.length] ++ payload) →
      judgeFrame p seq code payload check s = takeFrame p seq code payload check (s.setPhase p .hunting)) ∧
    (check ≠ crc ([seq, code, byteOf payload.length] ++ payload) →
      judgeFrame p seq code payload check s =
        s.setPort p { s.port p with checkErrors := satInc (s.port p).checkErrors, phase := .hunting })) ∧
  ∀ (p : Port) (check : Word16) (x : Response) (s : State),
    sendResponse p check x s =
      s.setPort p
        { s.port p with tx := some x, cache := some { seq := x.seq, code := x.code, check := check, response := x } }

/-- R139, R172, Table 10-2: the receiver reads back from a frame what the master put into it, the code names the request it was
written for, every request has its code and its payload length, and a WRITE-WINDOWS payload gives its windows back. Tables 10-1, 10-3
and 10-5: the codes that requests, responses and records carry. R170: a field of two, three or four bytes is sent, and read, most
significant byte first. R137, Table 8-2: the bits of a character on a line, the characters read from the bits of a line, the bits
of a response on the transmit line, and the line rates. -/
def Obligations.RequestFramesAreReadBack : Prop :=
  (∀ (d : Byte) (stop : Bool),
    LineCharacter.bits { data := d, stop := stop } =
      [false, d.getLsbD 0, d.getLsbD 1, d.getLsbD 2, d.getLsbD 3, d.getLsbD 4, d.getLsbD 5, d.getLsbD 6, d.getLsbD 7, stop]) ∧
  LineCharacter.bits { data := 0xD1, stop := true } = [false, true, false, false, false, true, false, true, true, true] ∧
  (∀ n, readLine (List.replicate n true) = []) ∧
  (∀ (n : Nat) (c : LineCharacter) (rest : List Bool), c.stop = true →
    readLine (List.replicate n true ++ c.bits ++ rest) = c :: readLine rest) ∧
  (∀ (n k : Nat) (c : LineCharacter) (rest : List Bool), c.stop = false →
    readLine (List.replicate n true ++ c.bits ++ List.replicate k false) = [c] ∧
    readLine (List.replicate n true ++ c.bits ++ List.replicate k false ++ true :: rest) = c :: readLine rest) ∧
  (∀ (s : State) (p : Port),
    ((s.port p).tx = none → ∀ n, s.txLevel p n = true) ∧
    (∀ x, (s.port p).tx = some x →
      readLine (s.txBits p) = x.chars.map (fun b => { data := b, stop := true }) ∧
      (s.txBits p).length = 10 * x.chars.length ∧
      ∀ n, s.txLevel p n = if h : n < (s.txBits p).length then (s.txBits p)[n] else true)) ∧
  (∀ s : State,
    s.bitRate =
      if s.lineRate = 0 then 115200 else if s.lineRate = 1 then 460800 else if s.lineRate = 2 then 1000000 else 3000000) ∧
  (∀ a b c d : Byte,
    be16 (a ++ b : BitVec 16) = [a, b] ∧ be24 (a ++ b ++ c : BitVec 24) = [a, b, c] ∧
    be32 (a ++ b ++ c ++ d : BitVec 32) = [a, b, c, d] ∧ bytes24 a b c = (a ++ b ++ c : BitVec 24)) ∧
  (be16 0x1234 = [0x12, 0x34] ∧ be24 0x123456 = [0x12, 0x34, 0x56] ∧ be32 0x12345678 = [0x12, 0x34, 0x56, 0x78] ∧
    be16Nat 0x1234 = [0x12, 0x34] ∧ be24Nat 0x123456 = [0x12, 0x34, 0x56] ∧
    be32Nat 0x12345678 = [0x12, 0x34, 0x56, 0x78] ∧ bytes24 0x12 0x34 0x56 = 0x123456) ∧
  (∀ (payload : List Byte) (i : Nat),
    let byte : Nat → Nat := fun j => (payload.getD j 0).toNat
    u8 payload i = byte i ∧ u16 payload i = 0x100 * byte i + byte (i + 1) ∧
    u24 payload i = 0x10000 * byte i + 0x100 * byte (i + 1) + byte (i + 2) ∧
    u32 payload i = 0x1000000 * byte i + 0x10000 * byte (i + 1) + 0x100 * byte (i + 2) + byte (i + 3) ∧
    word16 payload i = (payload.getD i 0 ++ payload.getD (i + 1) 0 : BitVec 16)) ∧
  (u16 [0x12, 0x34] 0 = 0x1234 ∧ u24 [0x12, 0x34, 0x56] 0 = 0x123456 ∧ u32 [0x12, 0x34, 0x56, 0x78] 0 = 0x12345678 ∧
    word16 [0x12, 0x34] 0 = 0x1234) ∧
  (∀ seq code payload check, payload.length ≤ 160 →
    progress (seq :: code :: byteOf payload.length :: (payload ++ be16 check)) = .complete seq code payload check) ∧
  (∀ r : Request, Request.ofCode r.code = some r) ∧
  (∀ c r, Request.ofCode c = some r → c = r.code) ∧
  (∀ r : Request,
    (r.code, r.fixedLength) =
      match r with
      | .identify => (0x01, some 0) | .openPort => (0x02, some 4) | .closePort => (0x03, some 0)
      | .readStatus => (0x04, some 1) | .clearFault => (0x05, some 1) | .restart => (0x06, some 0)
      | .claimAxis => (0x10, some 0) | .releaseAxis => (0x11, some 0) | .preset => (0x12, some 4)
      | .cancelPreset => (0x13, some 0) | .setAxis => (0x14, some 12) | .readAxis => (0x15, some 0)
      | .clearAxisFault => (0x16, some 1) | .claimTracks => (0x20, some 2) | .releaseTracks => (0x21, some 2)
      | .setTrack => (0x22, some 6) | .readTracks => (0x23, some 0) | .openEdit => (0x30, some 1)
      | .writeWindows => (0x31, none) | .readWindows => (0x32, some 2) | .commit => (0x33, some 9)
      | .abortEdit => (0x34, some 1) | .storeSlot => (0x40, some 2) | .eraseSlot => (0x41, some 1)
      | .loadSlot => (0x42, some 1) | .readSlot => (0x43, some 1) | .subscribe => (0x50, some 3)
      | .fetchEvents => (0x51, some 1)) ∧
  (∀ (r : Request) (n : Nat),
    r.lengthOk n = true ↔ r.fixedLength = some n ∨ (r = .writeWindows ∧ ∃ k, k ≤ 12 ∧ n = 1 + 6 * k)) ∧
  (∀ x : Status,
    x.code =
      match x with
      | .ok => 0 | .pending => 1 | .notOpen => 2 | .unknownRequest => 3 | .length => 4 | .range => 5 | .notOwner => 6
      | .owned => 7 | .locked => 8 | .noSession => 9 | .state => 10 | .invalidWindows => 11 | .poolFull => 12
      | .inUse => 13 | .storeBusy => 14 | .slotState => 15 | .mismatch => 16 | .stale => 17) ∧
  (∀ x : EventKind,
    x.code =
      match x with
      | .edge => 1 | .presetDone => 2 | .presetWithdrawn => 3 | .referenceChanged => 4 | .axisFault => 5
      | .signalRestored => 6 | .swapDone => 7 | .commitWithdrawn => 8 | .ownerChanged => 9 | .outputsEnabled => 10
      | .outputsDisabled => 11 | .storeDone => 12 | .storeFailed => 13 | .eraseDone => 14) ∧
  ([InputMode.pulseDir, .upDown, .quadX1, .quadX2, .quadX4].map InputMode.code = [0, 1, 2, 3, 4] ∧
    [PresetMode.now, .atIndex].map PresetMode.code = [0, 1] ∧
    [Mode.cam, .on, .off, .hold].map Mode.code = [0, 1, 2, 3] ∧
    [Orphan.cam, .off, .hold].map Orphan.code = [0, 2, 3] ∧
    [Condition.atPosition, .atIndex, .atRest].map Condition.code = [1, 2, 3] ∧
    [SwapDir.up, .down, .either].map SwapDir.code = [0, 1, 2] ∧ [Dir.up, .down].map Dir.code = [0, 1] ∧
    [FaultKind.countError, .signalLost, .overspeed, .indexDrift].map FaultKind.code = [1, 2, 3, 4] ∧
    [FaultKind.countError, .signalLost, .overspeed, .indexDrift].map FaultKind.seenBit = [1, 2, 4, 8] ∧
    [RefState.unreferenced, .referenced, .faulted].map RefState.code = [0, 1, 2] ∧
    [PortState.closed, .opened, .expired].map PortState.code = [0, 1, 2] ∧
    [EndCause.none, .closedByRequest, .lineBreak, .expiry, .deviceReset].map EndCause.code = [0, 1, 2, 3, 4] ∧
    (∀ g c, [Slot.empty, .valid g, .damaged c, .writing g, .erasing].map Slot.code = [0, 1, 2, 3, 4]) ∧
    [StoreKind.store, .erase].map StoreKind.code = [1, 2] ∧
    [Reason.tooMany, .edgeRange, .zeroWidth, .wrapNotLast, .order, .overlap].map Reason.code = [1, 2, 3, 4, 5, 6] ∧
    [EdgeCause.motion, .preset, .swap, .mode, .owner, .reference].map EdgeCause.code = [0, 1, 2, 3, 4, 5]) ∧
  (∀ (t : TrackNo) (ws : List Window), (∀ w ∈ ws, w.on < 2 ^ 24 ∧ w.off < 2 ^ 24) →
    windowsOf (byteOf t.val :: windowBytes ws) = ws ∧ trackOfCode (u8 (byteOf t.val :: windowBytes ws) 0) = some t)

/-! ## Window programs -/

/-- R42, R43, R44: the validity check passes exactly the valid lists, and of any other list it gives the reason and the index of
the first test that fails, windows from index 0 upward and the tests of a window in the order of Table 3-2. -/
def Obligations.ValidityCheckPassesTheValidLists : Prop :=
  ∀ (m : Nat) (ws : List Window),
    (checkList m ws = none ↔ ValidList m ws) ∧
    (12 < ws.length → checkList m ws = some (.tooMany, 12)) ∧
    (ws.length ≤ 12 → ∀ (pre post : List Reason) (r : Reason) (i : Nat),
      [Reason.edgeRange, .zeroWidth, .wrapNotLast, .order, .overlap] = pre ++ r :: post →
      (checkList m ws = some (r, i) ↔
        FailsTest m ws i r ∧ (∀ q ∈ pre, ¬ FailsTest m ws i q) ∧ ∀ j, j < i → ∀ q, ¬ FailsTest m ws j q))

/-- R53: the evaluation position is p plus the shift on the ring, and the inside test is made there. -/
def Obligations.EvaluationPositionLiesOnTheRing : Prop :=
  (∀ (p : Nat) (shift : Int) (m : Nat), 0 < m →
    evalPosition p shift m < m ∧ ((evalPosition p shift m : Int) = ((p : Int) + shift) % (m : Int)) ∧
    (p < m → ∀ k : Int, evalPosition p (k * m) m = p)) ∧
  evalPosition 5 (-7) 4096 = 4094 ∧ evalPosition 10 200000 4096 = 3402 ∧
  ∀ (s : State) (t : TrackNo),
    s.inside t = true ↔
      ∃ w ∈ s.active.list t, w.covers (evalPosition s.counter.p (s.track t).shift s.counter.modulus) = true

/-! ## Events and levels -/

/-- R120, R121, R122: an event is addressed to its direct addressee and to the subscribers of its class, or for EDGE of its
track (Table 7-2, with the classes' bits of Table 10-1). It takes the port's next number; its record is appended, or lost
where 32 records are queued; a port that is not OPEN or not addressed takes nothing; nothing else changes. -/
def Obligations.EventIsFiledOrLost : Prop :=
  (∀ (ev : Event) (m : Mailbox),
    m.subscribes ev = true ↔
      match ev.kind with
      | .edge => m.trackMask.getLsbD ev.subject.toNat = true
      | .presetDone | .referenceChanged | .axisFault | .signalRestored => m.classes.getLsbD 0 = true
      | .swapDone => m.classes.getLsbD 1 = true
      | .ownerChanged => m.classes.getLsbD 2 = true
      | .outputsEnabled | .outputsDisabled => m.classes.getLsbD 3 = true
      | .storeDone | .storeFailed | .eraseDone => m.classes.getLsbD 4 = true
      | .presetWithdrawn | .commitWithdrawn => False) ∧
  ∀ (ev : Event) (s : State),
    produce ev s = { s with mail := (produce ev s).mail } ∧
    ∀ q,
      (s.isOpen q = false → (produce ev s).box q = s.box q) ∧
      (ev.direct ≠ some q → (s.box q).subscribes ev = false → (produce ev s).box q = s.box q) ∧
      (s.isOpen q = true → (ev.direct = some q ∨ (s.box q).subscribes ev = true) → (s.box q).queue.length < 32 →
        (produce ev s).box q =
          { s.box q with
            queue := (s.box q).queue ++
              [{ seq := (s.box q).nextSeq, kind := ev.kind, subject := ev.subject, detail := ev.detail, time := s.time,
                 position := BitVec.ofNat 24 s.counter.p, extra := ev.extra }]
            nextSeq := (s.box q).nextSeq + 1 }) ∧
      (s.isOpen q = true → (ev.direct = some q ∨ (s.box q).subscribes ev = true) → 32 ≤ (s.box q).queue.length →
        (produce ev s).box q =
          { s.box q with
            lost := if (s.box q).lost = 0xFFFF then 0xFFFF else (s.box q).lost + 1, nextSeq := (s.box q).nextSeq + 1 })

/-- R60, R66, R70, R71, R76: the effective mode and the level that Table 4-2 gives it; and a re-evaluation, which gives each
track it names, and no other, its level, moves the pin with a changed level, and files one EDGE for each changed level in the
order of the tracks named. A re-evaluation of every track, and one of a set of tracks, names them in ascending order. -/
def Obligations.ReevaluationSetsEveryLevel : Prop :=
  let all : List TrackNo := [0, 1, 2, 3, 4, 5, 6, 7, 8, 9, 10, 11, 12, 13, 14, 15]
  (∀ (s : State) (t : TrackNo),
    let mode : Mode :=
      match (s.track t).owner with
      | some o => o.mode
      | none => match (s.track t).orphan with | .cam => .cam | .off => .off | .hold => .hold
    let e := evalPosition s.counter.p (s.track t).shift s.counter.modulus
    (s.track t).effective = mode ∧
    (mode = .on → s.levelOf t = true) ∧
    (mode = .off → s.levelOf t = false) ∧
    (mode = .hold → s.levelOf t = (s.track t).held) ∧
    (mode = .cam → (s.counter.ref = .referenced ∨ (s.track t).runUnref = true) →
      (s.levelOf t = true ↔
        ∃ w ∈ s.active.list t,
          (w.on < w.off ∧ w.on ≤ e ∧ e < w.off) ∨ (w.off < w.on ∧ (w.on ≤ e ∨ e < w.off)))) ∧
    (mode = .cam → s.counter.ref ≠ .referenced → (s.track t).runUnref = false → s.levelOf t = false)) ∧
  (∀ (cause : EdgeCause) (s : State), reevaluateAll cause s = reevaluate cause all s) ∧
  (∀ f : TrackNo → Bool, tracksWhere f = all.filter f) ∧
  ∀ (cause : EdgeCause) (named : List TrackNo) (s : State), named.Nodup →
    reevaluate cause named s =
      { s with tracks := (reevaluate cause named s).tracks, mail := (reevaluate cause named s).mail } ∧
    (∀ t, t ∉ named → (reevaluate cause named s).track t = s.track t) ∧
    (∀ t, t ∈ named →
      (reevaluate cause named s).track t =
        { s.track t with
          level := s.levelOf t
          pin := if s.levelOf t = (s.track t).level then (s.track t).pin else s.levelOf t && s.oe }) ∧
    ∀ q, (reevaluate cause named s).box q =
      (named.filter fun t => s.levelOf t ≠ (s.track t).level).foldl
        (fun m t =>
          if s.isOpen q = true ∧ m.trackMask.getLsbD t.val = true then
            m.file fun n =>
              { seq := n, kind := .edge, subject := byteOf t.val,
                detail := bytes24 0 cause.code (boolByte (s.levelOf t)), time := s.time,
                position := BitVec.ofNat 24 s.counter.p, extra := s.counter.turns.setWidth 24 }
          else m)
        (s.box q)

/-! ## Device reset and the power-up load -/

/-- Tables 1-1, 2-1, 4-1, 5-1, 7-1 and 8-1: the defaults after device reset, before the power-up load; and the laws of the part
hold in them. -/
def Obligations.ResetLeavesTheDefaults : Prop :=
  State.reset.time = 0 ∧
  (State.reset.counter.p = 0 ∧ State.reset.counter.turns = 0 ∧ State.reset.counter.modulus = 4096 ∧
    State.reset.counter.inputMode = .quadX4 ∧ State.reset.counter.invert = false ∧ State.reset.counter.lastDir = .up ∧
    State.reset.counter.ref = .unreferenced ∧ State.reset.counter.armed = none ∧ State.reset.counter.r = none ∧
    State.reset.counter.claim = none) ∧
  (State.reset.monitor.samplePeriod = 10 ∧ State.reset.monitor.periodCount = 0 ∧ State.reset.monitor.lossTouched = false ∧
    State.reset.monitor.speed = 0 ∧ State.reset.monitor.rest = true ∧ State.reset.monitor.overspeedLimit = 0 ∧
    State.reset.monitor.overspeed = false ∧ State.reset.monitor.driftTolerance = 0 ∧
    State.reset.monitor.restoreHold = none ∧ State.reset.monitor.faultRecord = none) ∧
  ((∀ t, State.reset.active.list t = []) ∧ State.reset.active.tag = 0 ∧ State.reset.session = none) ∧
  (∀ t, State.reset.track t =
    { owner := none, orphan := .off, lead := 0, shift := 0, runUnref := false, held := false, level := false,
      pin := false }) ∧
  State.reset.store.op = none ∧
  (∀ p, State.reset.box p = { queue := [], nextSeq := 0, lost := 0, trackMask := 0, classes := 0 }) ∧
  (∀ p,
    (State.reset.port p).state = .closed ∧ (State.reset.port p).supervision = 0 ∧ (State.reset.port p).timer = none ∧
    (State.reset.port p).tag = 0 ∧ (State.reset.port p).endCause = .deviceReset ∧ (State.reset.port p).cache = none ∧
    (State.reset.port p).checkErrors = 0 ∧ (State.reset.port p).frameErrors = 0 ∧ (State.reset.port p).overruns = 0 ∧
    (State.reset.port p).replays = 0 ∧ (State.reset.port p).refusal = none ∧ (State.reset.port p).refusals = 0 ∧
    (State.reset.port p).phase = .hunting ∧ (State.reset.port p).tx = none) ∧
  (bootLaw State.reset ∧ pinLaw State.reset ∧ levelLaw State.reset ∧ shiftLaw State.reset ∧ referenceLaw State.reset ∧
    mailLaw State.reset ∧ holdersLaw State.reset ∧ ringLaw State.reset ∧ storeLaw State.reset ∧ commitLaw State.reset)

/-- 00_scope 4.6, R2, R113, R136, R155: RESET_INPUT, LOSS_OF_POWER, and RESTART_DEVICE_RESET once the response has been sent,
bring every block to its defaults. A slot in WRITING or ERASING keeps neither image, the others keep theirs; the boot record,
the line rate, the receivers' reports, the OE input and the levels of the receive lines stay (log 20). 00_scope 4.6 names RESET and RESTART alone: that
LOSS_OF_POWER is such a device reset, and keeps the same, is the model's reading (log 25). Until its response has been sent a
RESTART resets nothing. -/
def Obligations.DeviceResetKeepsOnlyTheSlots : Prop :=
  ∀ s : State,
    let t : State :=
      { State.reset with
        lineRate := s.lineRate
        monitor := { State.reset.monitor with inFault := s.monitor.inFault }
        oe := s.oe
        store :=
          { slots := Table.build fun i => if (s.slot i).inFlight then .damaged .torn else s.slot i
            op := none
            boot := s.store.boot }
        ports := Table.build fun p => { State.reset.port p with line := (s.port p).line }
        choices := s.choices
        pending := s.pending }
    exec .resetInput s = .next t ∧ exec .lossOfPower s = .next t ∧
    (∀ p, s.lifecycle = .restarting p → (s.port p).tx = none → exec .restartDeviceReset s = .next t) ∧
    (∀ p, s.lifecycle = .restarting p → (s.port p).tx ≠ none → exec .restartDeviceReset s = .next s) ∧
    ((∀ p, s.lifecycle ≠ .restarting p) → exec .restartDeviceReset s = .next s)

/-- R103, R114, R115, R137: what a slot's contents are and when they are whole (boot attribute, tag, input mode, invert,
orphan actions and run-unreferenced flags of an image hold no value out of its range); the power-up load judges each slot,
chooses the VALID boot candidate with the highest generation, and reads the straps. It begins only once after a device reset.
-/
def Obligations.PowerUpLoadJudgesAndSelects : Prop :=
  (∀ (c : Contents) (g : Image),
    c.whole = some g ↔
      c = .image g true ∧ 1 ≤ g.generation.toNat ∧ (2 ≤ g.modulus ∧ g.modulus ≤ 16777216) ∧
      (1 ≤ g.samplePeriod ∧ g.samplePeriod ≤ 1000) ∧ g.overspeedLimit ≤ 16000000 ∧ g.driftTolerance ≤ 255 ∧
      (∀ t, (g.settings.look t).lead ≤ 20000) ∧ (∀ t, ValidList g.modulus (g.lists.look t)) ∧
      ((Table.numbers 16).map fun t => (g.lists.look t).length).sum ≤ 96) ∧
  (∀ g : Image, g.wellMade = true ↔ (Contents.image g true).whole = some g) ∧
  (∀ x : Slot,
    x.contents =
      match x with
      | .empty => none
      | .valid g => some (.image g true)
      | .damaged c => some c
      | .writing _ | .erasing => some .torn) ∧
  ∀ (s : State) (straps : BitVec 2),
    (s.lifecycle ≠ .inReset → exec (.powerUpLoad straps) s = .next s) ∧
    (s.lifecycle = .inReset → ∃ t,
      exec (.powerUpLoad straps) s = .next t ∧
      t = { s with lifecycle := .loading, lineRate := straps,
                   store := { slots := t.store.slots, op := s.store.op, boot := t.store.boot } } ∧
      (∀ i, (s.slot i).contents = none → t.slot i = .empty) ∧
      (∀ i c, (s.slot i).contents = some c → c.whole = none → t.slot i = .damaged c) ∧
      (∀ i c g, (s.slot i).contents = some c → c.whole = some g →
        (∃ j d h, j < i ∧ (s.slot j).contents = some d ∧ d.whole = some h ∧ h.generation = g.generation) →
          t.slot i = .damaged c) ∧
      (∀ i c g, (s.slot i).contents = some c → c.whole = some g →
        (¬ ∃ j d h, j < i ∧ (s.slot j).contents = some d ∧ d.whole = some h ∧ h.generation = g.generation) →
          t.slot i = .valid g) ∧
      ∀ b, t.store.boot = some b ↔
        ∃ g, t.slot b.slot = .valid g ∧ g.boot = true ∧ b.generation = g.generation ∧
          ∀ j h, t.slot j = .valid h → h.boot = true → h.generation.toNat ≤ g.generation.toNat)

/-- R115, R116, R25, R35, R59: at the end of the load the parts of the image that the boot record names are in force (or the
defaults stay), the first sample period begins, every level is evaluated and every pin set, no event is produced, and the
ports receive. -/
def Obligations.PowerUpLoadEndAppliesTheImage : Prop :=
  ∀ s : State,
    (s.lifecycle ≠ .loading → exec .powerUpLoadEnd s = .next s) ∧
    (s.lifecycle = .loading → ∃ t,
      exec .powerUpLoadEnd s = .next t ∧
      t = { s with lifecycle := .running, counter := t.counter, monitor := t.monitor, active := t.active,
                   tracks := t.tracks } ∧
      (∀ b g, s.store.boot = some b → s.slot b.slot = .valid g →
        t.counter = { s.counter with modulus := g.modulus, inputMode := g.inputMode, invert := g.invert } ∧
        t.active = { lists := g.lists, tag := g.tag } ∧
        t.monitor.samplePeriod = g.samplePeriod ∧ t.monitor.overspeedLimit = g.overspeedLimit ∧
        t.monitor.driftTolerance = g.driftTolerance ∧
        ∀ i, (t.track i).orphan = (g.settings.look i).orphan ∧ (t.track i).lead = (g.settings.look i).lead ∧
          (t.track i).runUnref = (g.settings.look i).runUnref) ∧
      ((∀ b g, s.store.boot = some b → s.slot b.slot ≠ .valid g) →
        t.counter = s.counter ∧ t.active = s.active ∧ t.monitor.samplePeriod = s.monitor.samplePeriod ∧
        t.monitor.overspeedLimit = s.monitor.overspeedLimit ∧ t.monitor.driftTolerance = s.monitor.driftTolerance ∧
        ∀ i, (t.track i).orphan = (s.track i).orphan ∧ (t.track i).lead = (s.track i).lead ∧
          (t.track i).runUnref = (s.track i).runUnref) ∧
      t.monitor =
        { s.monitor with
          samplePeriod := t.monitor.samplePeriod, overspeedLimit := t.monitor.overspeedLimit,
          driftTolerance := t.monitor.driftTolerance, periodLength := t.monitor.samplePeriod, periodStart := s.time,
          signalLoss := s.monitor.inFault.someLine, lossTouched := s.monitor.inFault.someLine, restoreHold := none } ∧
      ∀ i, (t.track i).owner = (s.track i).owner ∧ (t.track i).held = (s.track i).held ∧
        (t.track i).shift = (s.track i).shift ∧ (t.track i).level = t.levelOf i ∧
        (t.track i).pin = (t.levelOf i && s.oe))

/-! ## The encoder -/

/-- R4, R5, R6, Table 1-2: what one sample of A and B gives after the levels `a0` and `b0`, before invert. -/
def Obligations.DecodingFollowsTheInputMode : Prop :=
  (∀ a0 b0 a b,
    decode .pulseDir a0 b0 a b =
      (if a0 = false ∧ a = true then .count (if b = true then .up else .down) else .nothing)) ∧
  (∀ a0 b0 a b,
    decode .upDown a0 b0 a b =
      (if (a0 = false ∧ a = true) ∧ ¬ (b0 = false ∧ b = true) then .count .up
       else if (b0 = false ∧ b = true) ∧ ¬ (a0 = false ∧ a = true) then .count .down
       else .nothing)) ∧
  (∀ mode : InputMode, mode = .quadX1 ∨ mode = .quadX2 ∨ mode = .quadX4 →
    (∀ a0 b0 a b, (a0 ≠ a ∧ b0 ≠ b ↔ decode mode a0 b0 a b = .error)) ∧
    ∀ a b, decode mode a b a b = .nothing) ∧
  (decode .quadX1 false false true false = .count .up ∧ decode .quadX1 true false true true = .nothing ∧
    decode .quadX1 true true false true = .nothing ∧ decode .quadX1 false true false false = .nothing ∧
    decode .quadX1 true false false false = .count .down ∧ decode .quadX1 true true true false = .nothing ∧
    decode .quadX1 false true true true = .nothing ∧ decode .quadX1 false false false true = .nothing) ∧
  (decode .quadX2 false false true false = .count .up ∧ decode .quadX2 true false true true = .nothing ∧
    decode .quadX2 true true false true = .count .up ∧ decode .quadX2 false true false false = .nothing ∧
    decode .quadX2 true false false false = .count .down ∧ decode .quadX2 true true true false = .nothing ∧
    decode .quadX2 false true true true = .count .down ∧ decode .quadX2 false false false true = .nothing) ∧
  (decode .quadX4 false false true false = .count .up ∧ decode .quadX4 true false true true = .count .up ∧
    decode .quadX4 true true false true = .count .up ∧ decode .quadX4 false true false false = .count .up ∧
    decode .quadX4 true false false false = .count .down ∧ decode .quadX4 true true true false = .count .down ∧
    decode .quadX4 false true true true = .count .down ∧ decode .quadX4 false false false true = .count .down)

/-- R7, R8, R9, R27, R91: a count arrival moves p one step on the ring, adds to the period count, and every track is re-evaluated
with cause MOTION; where it meets an AT_POSITION commit the swap is taken before or after that re-evaluation. That the
change of INDEX in the same sample is taken last is the model's choice (log 14; R10 leaves the order open). -/
def Obligations.CountArrivalStepsTheRing : Prop :=
  ∀ (s : State) (a b index : Bool) (d : Dir),
    s.inService = true → s.counter.resyncCount = false → s.monitor.signalLoss = false →
    decode s.counter.inputMode s.counter.lineA s.counter.lineB a b = .count d →
    let up : Prop := (d = .up ∧ s.counter.invert = false) ∨ (d = .down ∧ s.counter.invert = true)
    let c := s.counter
    ∀ moved : State,
      (up →
        moved =
          { s with
            counter :=
              { c with
                lineA := a, lineB := b, lastDir := .up
                p := if c.p + 1 < c.modulus then c.p + 1 else 0
                turns := if c.p + 1 < c.modulus then c.turns else c.turns + 1 }
            monitor := { s.monitor with periodCount := s.monitor.periodCount + 1 } }) →
      (¬ up →
        moved =
          { s with
            counter :=
              { c with
                lineA := a, lineB := b, lastDir := .down
                p := if 0 < c.p then c.p - 1 else c.modulus - 1
                turns := if 0 < c.p then c.turns else c.turns - 1 }
            monitor := { s.monitor with periodCount := s.monitor.periodCount - 1 } }) →
      let meets := fun pc : PendingCommit =>
        pc.condition = .atPosition ∧ pc.position = moved.counter.p ∧
          (pc.direction = .either ∨ (pc.direction = .up ∧ up) ∨ (pc.direction = .down ∧ ¬ up))
      ((∀ e pc, s.session = some e → e.pending = some pc → ¬ meets pc) →
        exec (.countArrival a b index) s = .next (sampleIndex index (reevaluateAll .motion moved))) ∧
      (∀ e pc, s.session = some e → e.pending = some pc → meets pc → ∃ n,
        exec (.countArrival a b index) s =
            .next (sampleIndex index (swapped e pc.tag (reevaluateAll .motion { moved with choices := n }))) ∨
          exec (.countArrival a b index) s =
            .next (sampleIndex index (reevaluateAll .motion (swapped e pc.tag { moved with choices := n }))))

/-- R2, R3, R6, R14, R31, R32: a sample without a count sets the line state and gives nothing from A and B; one that changes both
lines in a quadrature mode raises COUNT_ERROR. Before the load has ended no sample is taken. That the change of INDEX in the same
sample is taken last is the model's choice (log 14; R10 leaves the order open). -/
def Obligations.SamplesWithoutACount : Prop :=
  ∀ (s : State) (a b index : Bool),
    let taken : State := { s with counter := { s.counter with lineA := a, lineB := b, resyncCount := false } }
    (s.inService = false →
      exec (.countArrival a b index) s = .next s ∧ exec (.countError a b index) s = .next s ∧
      exec (.indexEdge a b index) s = .next s ∧ exec (.decoderSampleWithoutCount a b index) s = .next s) ∧
    (s.inService = true →
      ((s.counter.resyncCount = true ∨ s.monitor.signalLoss = true ∨
          decode s.counter.inputMode s.counter.lineA s.counter.lineB a b = .nothing) →
        exec (.decoderSampleWithoutCount a b index) s = .next (sampleIndex index taken)) ∧
      (s.counter.resyncCount = false → s.monitor.signalLoss = false →
        decode s.counter.inputMode s.counter.lineA s.counter.lineB a b = .error →
        exec (.countError a b index) s =
          .next (sampleIndex index
            (raised .countError
              (bytes24 0 ((if s.counter.lineA then 2 else 0) + (if s.counter.lineB then 1 else 0))
                ((if a then 2 else 0) + (if b then 1 else 0))) taken))))

/-- R10, R15, R19, R37, R92: an index edge completes an armed preset, or records r, or is judged for drift, and then may meet an
AT_INDEX commit; with drift and a commit the two re-evaluations are taken in either order. A level of INDEX that is no edge sets
the line state alone. That INDEX_EDGE takes the change of INDEX before A and B of its sample is the model's choice (log 14; R10
leaves the order open). -/
def Obligations.IndexEdgeByTheCountersState : Prop :=
  ∀ s : State,
    (∀ a b index, s.inService = true →
      exec (.indexEdge a b index) s = .next (sampleCount a b (sampleIndex index s))) ∧
    (∀ index,
      (s.counter.resyncIndex = true ∨ s.monitor.signalLoss = true ∨ s.counter.lineIndex = true ∨ index = false) →
      sampleIndex index s = { s with counter := { s.counter with lineIndex := index, resyncIndex := false } }) ∧
    (s.counter.resyncIndex = false → s.monitor.signalLoss = false → s.counter.lineIndex = false →
      let taken : State := { s with counter := { s.counter with lineIndex := true } }
      let drift := s.counter.ref = .referenced ∧ 0 < s.monitor.driftTolerance ∧
        ∃ r, s.counter.r = some r ∧ s.monitor.driftTolerance < circularDistance s.counter.p r s.counter.modulus
      (∀ x, s.counter.armed = some x →
        sampleIndex true s =
          editAtIndex
            (reevaluateAll .preset
              (produce
                { kind := .presetDone, subject := 16 + byteOf x.port.val, detail := BitVec.ofNat 24 x.value, extra := 0,
                  direct := some x.port }
                { taken with
                  counter :=
                    { taken.counter with
                      p := x.value, turns := 0, ref := .referenced, r := some x.value, armed := none } }))) ∧
      (s.counter.armed = none → s.counter.ref = .referenced → s.counter.r = none →
        sampleIndex true s = editAtIndex { taken with counter := { taken.counter with r := some s.counter.p } }) ∧
      (s.counter.armed = none → ¬ drift → ¬ (s.counter.ref = .referenced ∧ s.counter.r = none) →
        sampleIndex true s = editAtIndex taken) ∧
      (s.counter.armed = none → drift → ∀ r, s.counter.r = some r →
        let lowered :=
          fallen .indexDrift
            (reported .indexDrift (BitVec.ofNat 24 (circularDistance s.counter.p r s.counter.modulus)) taken)
        ((∀ e pc, s.session = some e → e.pending = some pc → pc.condition ≠ .atIndex) →
          sampleIndex true s = reevaluateAll .reference lowered) ∧
        (∀ e pc, s.session = some e → e.pending = some pc → pc.condition = .atIndex → ∃ n,
          sampleIndex true s = swapped e pc.tag (reevaluateAll .reference { lowered with choices := n }) ∨
            sampleIndex true s = reevaluateAll .reference (swapped e pc.tag { lowered with choices := n })))) ∧
    ((∀ e pc, s.session = some e → e.pending = some pc → pc.condition ≠ .atIndex) → editAtIndex s = s) ∧
    (∀ e pc, s.session = some e → e.pending = some pc → pc.condition = .atIndex → editAtIndex s = swapped e pc.tag s) ∧
    ∀ p r m, p < m → r < m → circularDistance p r m = min ((p + m - r) % m) ((r + m - p) % m)

/-- R33, R34, R35: the receivers' reports, the condition they begin, and the restore hold that ends it. Before the load has
ended a report is only taken down. -/
def Obligations.SignalLossFollowsTheReceivers : Prop :=
  ∀ (s : State) (lines : LineSet),
    let failed : LineSet :=
      ⟨s.monitor.inFault.a || lines.a, s.monitor.inFault.b || lines.b, s.monitor.inFault.index || lines.index⟩
    let healed : LineSet :=
      ⟨s.monitor.inFault.a && ! lines.a, s.monitor.inFault.b && ! lines.b, s.monitor.inFault.index && ! lines.index⟩
    (s.inService = false →
      exec (.receiverFault lines) s = .next { s with monitor := { s.monitor with inFault := failed } } ∧
      exec (.receiverHealthy lines) s = .next { s with monitor := { s.monitor with inFault := healed } }) ∧
    (s.inService = true → s.monitor.signalLoss = true →
      (lines ≠ ⟨false, false, false⟩ →
        exec (.receiverFault lines) s =
          .next { s with monitor := { s.monitor with inFault := failed, restoreHold := none } }) ∧
      ((healed ≠ ⟨false, false, false⟩ ∨ s.monitor.restoreHold ≠ none) →
        exec (.receiverHealthy lines) s = .next { s with monitor := { s.monitor with inFault := healed } }) ∧
      (healed = ⟨false, false, false⟩ → s.monitor.restoreHold = none →
        exec (.receiverHealthy lines) s =
          .next { s with monitor := { s.monitor with inFault := healed, restoreHold := some s.time } })) ∧
    (s.inService = true → s.monitor.signalLoss = false →
      (failed = s.monitor.inFault → exec (.receiverFault lines) s = .next s) ∧
      (failed ≠ s.monitor.inFault →
        exec (.receiverFault lines) s =
          .next (raised .signalLost
            (bytes24 0 0
              ((if failed.a then 1 else 0) + (if failed.b then 2 else 0) + (if failed.index then 4 else 0)))
            { s with
              monitor :=
                { s.monitor with inFault := failed, signalLoss := true, lossTouched := true, restoreHold := none } })) ∧
      exec (.receiverHealthy lines) s = .next { s with monitor := { s.monitor with inFault := healed } }) ∧
    (∀ start, s.monitor.signalLoss = true → s.monitor.inFault = ⟨false, false, false⟩ →
      s.monitor.restoreHold = some start → 1000 ≤ (s.time - start).toNat →
        exec .signalRestored s =
          .next (produce
            { kind := .signalRestored, subject := 0, detail := 0, extra := s.counter.turns.setWidth 24, direct := none }
            { s with monitor := { s.monitor with signalLoss := false, restoreHold := none } })) ∧
    ((s.monitor.signalLoss = false ∨ s.monitor.inFault ≠ ⟨false, false, false⟩ ∨ s.monitor.restoreHold = none ∨
        ∃ start, s.monitor.restoreHold = some start ∧ (s.time - start).toNat < 1000) →
      exec .signalRestored s = .next s)

/-- R26, R28, R29, R36, R54, R93: a period ends when its length has passed; speed and rest are computed and the next period
begins at the same time-base value; then the track unit, the edit unit and the overspeed judgement act once each, in some
order. -/
def Obligations.PeriodEndGivesSpeedAndRest : Prop :=
  (∀ s : State,
    ((s.inService = false ∨ (s.time - s.monitor.periodStart).toNat < s.monitor.periodLength * 1000) →
      exec .periodEnd s = .next s) ∧
    (s.inService = true → s.monitor.periodLength * 1000 ≤ (s.time - s.monitor.periodStart).toNat →
      ∃ (order : List PeriodReceiver) (n : Nat),
        order.Perm [.motion, .edit, .overspeed] ∧
        exec .periodEnd s =
          .next (order.foldl PeriodReceiver.act
            { s with
              choices := n
              monitor :=
                { s.monitor with
                  speed := (s.monitor.periodCount * 1000).tdiv s.monitor.periodLength
                  rest := s.monitor.periodCount = 0 ∧ s.monitor.lossTouched = false
                  periodCount := 0
                  periodStart := s.monitor.periodStart + BitVec.ofNat 32 (s.monitor.periodLength * 1000)
                  periodLength := s.monitor.samplePeriod
                  lossTouched := s.monitor.signalLoss } }))) ∧
  ∀ x : State,
    (PeriodReceiver.act x .motion =
      reevaluate .motion
        (tracksWhere fun t => (x.monitor.speed * ((x.track t).lead : Int)).tdiv 1000000 ≠ (x.track t).shift)
        { x with
          tracks := Table.build fun t =>
            { x.track t with shift := (x.monitor.speed * ((x.track t).lead : Int)).tdiv 1000000 } }) ∧
    (∀ e pc, x.session = some e → e.pending = some pc → pc.condition = .atRest → x.monitor.rest = true →
      PeriodReceiver.act x .edit = swapped e pc.tag x) ∧
    ((x.monitor.rest = false ∨ ∀ e pc, x.session = some e → e.pending = some pc → pc.condition ≠ .atRest) →
      PeriodReceiver.act x .edit = x) ∧
    ((x.monitor.overspeedLimit = 0 ∨ x.monitor.speed.natAbs ≤ x.monitor.overspeedLimit) →
      PeriodReceiver.act x .overspeed = { x with monitor := { x.monitor with overspeed := false } }) ∧
    (x.monitor.overspeedLimit ≠ 0 → x.monitor.overspeedLimit < x.monitor.speed.natAbs →
      (x.monitor.overspeed = true → PeriodReceiver.act x .overspeed = x) ∧
      (x.monitor.overspeed = false →
        PeriodReceiver.act x .overspeed =
          reported .overspeed (BitVec.ofNat 24 (min x.monitor.speed.natAbs 16777215))
            { x with monitor := { x.monitor with overspeed := true } }))

/-! ## The OE input and the store's completions -/

/-- R76, R77: a change of OE moves every pin to its level's value under the new OE state, changes no level, and is reported.
That a change before service produces no event is the model's reading (log 23). -/
def Obligations.OeChangeGatesThePins : Prop :=
  ∀ (s : State) (level : Bool),
    (s.oe = level → exec (.oeChange level) s = .next s) ∧
    (s.oe ≠ level → s.inService = true →
      exec (.oeChange level) s =
        .next (produce
          { kind := if level then .outputsEnabled else .outputsDisabled, subject := 0, detail := 0,
            extra := s.counter.turns.setWidth 24, direct := none }
          { s with oe := level, tracks := Table.build fun i => { s.track i with pin := (s.track i).level && level } })) ∧
    (s.oe ≠ level → s.inService = false → exec (.oeChange level) s = .next { s with oe := level })

/-- R103, R106, R109, R134: a store completes VALID where what the cells hold is whole, DAMAGED otherwise; an erase completes
EMPTY; a completion of an operation that is not in flight changes nothing. -/
def Obligations.StoreOperationsComplete : Prop :=
  (∀ (s : State) (i : SlotNo) (r : Option Port) (g : Image) (cellsHold : Bool),
     s.store.op = some { kind := .store, slot := i, requester := r } → s.slot i = .writing g →
     ((Contents.image g cellsHold).whole = some g →
       exec (.storeCompletion cellsHold) s =
         .next { produce
                   { kind := .storeDone, subject := byteOf i.val, detail := (g.generation >>> 24).setWidth 24,
                     extra := g.generation.setWidth 24, direct := r } s with
                 store := { s.store with slots := s.store.slots.put i (.valid g), op := none } }) ∧
     ((Contents.image g cellsHold).whole = none →
       exec (.storeCompletion cellsHold) s =
         .next { produce
                   { kind := .storeFailed, subject := byteOf i.val, detail := 0,
                     extra := s.counter.turns.setWidth 24, direct := r } s with
                 store := { s.store with slots := s.store.slots.put i (.damaged (.image g cellsHold)), op := none } })) ∧
  (∀ (s : State) (i : SlotNo) (r : Option Port),
     s.store.op = some { kind := .erase, slot := i, requester := r } →
     exec .eraseCompletion s =
       .next { produce
                 { kind := .eraseDone, subject := byteOf i.val, detail := 0, extra := s.counter.turns.setWidth 24,
                   direct := r } s with
               store := { s.store with slots := s.store.slots.put i .empty, op := none } }) ∧
  ∀ s : State,
    ((∀ o, s.store.op = some o → o.kind = .erase) → ∀ cellsHold, exec (.storeCompletion cellsHold) s = .next s) ∧
    ((∀ o, s.store.op = some o → o.kind = .store) → exec .eraseCompletion s = .next s)

/-! ## Reception -/

/-- R146: a frame whose seq, code and check value are those of the retry cache is a repeat: it is answered from the cache, and
nothing but the replay count, the timer and the transmitter changes. A frame is taken for the request it carries whichever row
brings it, repeat or not. -/
def Obligations.ReplayIsAnsweredFromTheCache : Prop :=
  ∀ (s : State) (p : Port) (seq code : Byte) (payload : List Byte), Hears s p → payload.length ≤ 160 →
    (∀ x : Response, s.cached p seq code (requestCheck seq code payload) = some x →
      exec (.replay p seq code payload) s =
        .next ((heard p s).setPort p
          { (heard p s).port p with replays := satInc (s.port p).replays, tx := some x })) ∧
    (∀ x : Response,
      s.cached p seq code (requestCheck seq code payload) = some x ↔
        ∃ c, (s.port p).cache = some c ∧ c.seq = seq ∧ c.code = code ∧ c.check = requestCheck seq code payload ∧
          c.response = x) ∧
    (∀ r : Request, r.code = code → exec (r.command p seq payload) s = exec (.replay p seq code payload) s) ∧
    exec (.unknownRequest p seq code payload) s = exec (.replay p seq code payload) s

/-- R158, R159: before a request reaches its block, a port state that does not admit it refuses NOT_OPEN with detail 0,
unrecorded; at an OPEN port a code that names no request is refused UNKNOWN_REQUEST with the code as detail, and then a
payload whose length is not the request's is refused LENGTH. So is that of an OPEN or IDENTIFY at a port that is not OPEN, and of
a CLOSE at an EXPIRED port, unrecorded. -/
def Obligations.AdmissionRefusesBeforeAnyBlock : Prop :=
  (∀ (s : State) (p : Port) (seq code : Byte) (payload : List Byte),
     Hears s p → payload.length ≤ 160 → Fresh s p seq code payload → s.isOpen p = false →
     code ≠ Request.code .identify → code ≠ Request.code .openPort →
     ((s.port p).state = .expired → code ≠ Request.code .closePort) →
     exec (.unknownRequest p seq code payload) s =
       .next (sent (heard p s) p seq code (requestCheck seq code payload) .notOpen 0 []) ∧
     ∀ r : Request, r.code = code →
       exec (r.command p seq payload) s =
         .next (sent (heard p s) p seq code (requestCheck seq code payload) .notOpen 0 [])) ∧
  (∀ (s : State) (p : Port) (seq code : Byte) (payload : List Byte),
     Hears s p → payload.length ≤ 160 → Fresh s p seq code payload → s.isOpen p = true →
     (∀ r : Request, r.code ≠ code) →
     exec (.unknownRequest p seq code payload) s =
       .next (sent (refusedAt p seq code .unknownRequest (code.setWidth 16) (heard p s)) p seq code
         (requestCheck seq code payload) .unknownRequest (code.setWidth 16) [])) ∧
  (∀ (s : State) (p : Port) (r : Request) (seq : Byte) (payload : List Byte) (n : Nat),
     Hears s p → payload.length ≤ 160 → Fresh s p seq r.code payload → s.isOpen p = false →
     (r = .identify ∨ r = .openPort ∨ (r = .closePort ∧ (s.port p).state = .expired)) →
     r.fixedLength = some n → payload.length ≠ n →
     Completes s p r seq payload (heard p s) .length (BitVec.ofNat 16 n) []) ∧
  ∀ (s : State) (p : Port) (r : Request) (seq : Byte) (payload : List Byte),
    Hears s p → payload.length ≤ 160 → Fresh s p seq r.code payload → s.isOpen p = true →
    (∀ n, r.fixedLength = some n → payload.length ≠ n → Refuses s p r seq payload .length (BitVec.ofNat 16 n)) ∧
    (r = .writeWindows → (∀ n, n ≤ 12 → payload.length ≠ 1 + 6 * n) → Refuses s p r seq payload .length 0xFFFF)

/-- R157, R163: whatever its block refuses, an accepted request changes nothing but what reports the refusal. -/
def Obligations.RefusalChangesNothingElse : Prop :=
  ∀ (s : State) (p : Port) (r : Request) (seq : Byte) (payload : List Byte),
    Accepts s p r seq payload → (handle r p payload (heard p s)).status.refuses = true →
    Refuses s p r seq payload (handle r p payload (heard p s)).status (handle r p payload (heard p s)).detail

/-- R139, R141, R145: a frame with wrong check bytes, and one whose length byte is above 160, are discarded and counted once. -/
def Obligations.BadFramesAreDiscardedAndCounted : Prop :=
  ∀ (s : State) (p : Port) (seq code : Byte), Hears s p →
    (∀ payload check, payload.length ≤ 160 → check ≠ requestCheck seq code payload →
      exec (.checkError p seq code payload check) s =
        .next (s.setPort p
          { s.port p with
            line := .high
            checkErrors := if (s.port p).checkErrors = 0xFFFF then 0xFFFF else (s.port p).checkErrors + 1 })) ∧
    (∀ length : Byte, 160 < length.toNat →
      exec (.frameError p seq code length) s =
        .next (s.setPort p
          { s.port p with
            line := .high
            frameErrors := if (s.port p).frameErrors = 0xFFFF then 0xFFFF else (s.port p).frameErrors + 1 }))

/-- R137, R138: characters arrive as the bits of the line, and one whose stop bit is read as 0, whatever its data bits and however
long the line then stays at 0, is one character fault. R117, R139, R140, R142, R155: the ports receive only while the part runs, neither before the load has ended nor after
an admitted RESTART; until then a character shows that the line is at 1 and changes nothing else. While they receive: HUNTING
discards every character but the delimiter, uncounted, and characters are kept in RECEIVING and dropped in SKIPPING until the
frame ends. Then a silence over the gap limit and a character fault, after any characters. -/
def Obligations.GapAndCharacterFaultByPhase : Prop :=
  ∀ (s : State) (p : Port) (chars : List Byte),
    let u := receiveChars p chars s
    let counted := if (u.port p).frameErrors = 0xFFFF then 0xFFFF else (u.port p).frameErrors + 1
    (s.portsReceive = true ↔ s.lifecycle = .running) ∧
    (u = receiveLine p (chars.flatMap fun b => LineCharacter.bits { data := b, stop := true }) s) ∧
    (∀ (b : Byte) (n : Nat),
      exec (.characterFault p chars) s =
        .next
          (receiveLine p
            ((chars.flatMap fun b => LineCharacter.bits { data := b, stop := true }) ++
              (LineCharacter.bits { data := b, stop := false } ++ List.replicate n false)) s)) ∧
    receiveChars p [] s = s ∧
    (∀ b, receiveChars p (chars ++ [b]) s = receiveChars p [b] u) ∧
    (s.portsReceive = false →
      ((s.port p).line = .high → u = s) ∧
      (chars ≠ [] → u = s.setPort p { s.port p with line := .high })) ∧
    (∀ b, s.portsReceive = true → (s.port p).phase = .hunting →
      (b ≠ 0xD1 → receiveChars p [b] s = s.setPort p { s.port p with line := .high }) ∧
      (b = 0xD1 → (s.port p).tx = none →
        receiveChars p [b] s = s.setPort p { s.port p with line := .high, phase := .receiving [] })) ∧
    (∀ kept b, s.portsReceive = true → (s.port p).phase = .receiving kept → progress (kept ++ [b]) = .more →
      receiveChars p [b] s = s.setPort p { s.port p with line := .high, phase := .receiving (kept ++ [b]) }) ∧
    (∀ taken b, s.portsReceive = true → (s.port p).phase = .skipping taken → progress (taken ++ [b]) = .more →
      receiveChars p [b] s = s.setPort p { s.port p with line := .high, phase := .skipping (taken ++ [b]) }) ∧
    (u.portsReceive = false →
      exec (.gapLimitExceeded p chars) s = .next u ∧
      exec (.characterFault p chars) s = .next (u.setPort p { u.port p with line := .lowFault })) ∧
    (u.portsReceive = true → (u.port p).phase = .hunting →
      exec (.gapLimitExceeded p chars) s = .next u ∧
      exec (.characterFault p chars) s = .next (u.setPort p { u.port p with frameErrors := counted, line := .lowFault })) ∧
    (∀ kept, u.portsReceive = true → (u.port p).phase = .receiving kept →
      exec (.gapLimitExceeded p chars) s =
        .next (u.setPort p { u.port p with frameErrors := counted, phase := .hunting }) ∧
      exec (.characterFault p chars) s =
        .next (u.setPort p { u.port p with frameErrors := counted, phase := .hunting, line := .lowFault })) ∧
    (∀ taken, u.portsReceive = true → (u.port p).phase = .skipping taken →
      exec (.gapLimitExceeded p chars) s = .next (u.setPort p { u.port p with phase := .hunting }) ∧
      exec (.characterFault p chars) s =
        .next (u.setPort p { u.port p with phase := .hunting, line := .lowFault }))

/-- R142: a delimiter while a response is being sent begins an overrun frame, counted once and skipped to its end; when the
response has been sent the transmitter is IDLE. -/
def Obligations.OverrunFrameIsCountedOnceAndSkipped : Prop :=
  ∀ (s : State) (p : Port),
    (s.portsReceive = true → (s.port p).phase = .hunting → (s.port p).tx ≠ none →
      exec (.overrun p) s =
        .next (s.setPort p
          { s.port p with
            line := .high, phase := .skipping []
            overruns := if (s.port p).overruns = 0xFFFF then 0xFFFF else (s.port p).overruns + 1 })) ∧
    (∀ (taken chars : List Byte) (last : Byte),
      s.portsReceive = true → (s.port p).phase = .skipping taken →
      (∀ n, n < chars.length → progress (taken ++ chars.take (n + 1)) = .more) →
      progress (taken ++ chars ++ [last]) ≠ .more →
      exec (.overrunFrameEnd p (chars ++ [last])) s =
        .next (s.setPort p { s.port p with line := .high, phase := .hunting })) ∧
    exec (.responseComplete p) s = .next (s.setPort p { s.port p with tx := none })

/-! ## Breaks, supervision and the port reset -/

/-- R152, R153, R65, R101, R107, R130: what a port reset releases, what it produces for the other ports and in which order,
what it keeps and what it does not reach. The port is not OPEN from the start, so nothing is filed for it. -/
def Obligations.PortResetReleasesEverything : Prop :=
  ∀ (s : State) (p : Port) (c : ResetCause),
    let t := portReset p c s
    let owned : TrackNo → Bool := fun i => (s.track i).ownerPort = some p
    let told := fun (axis : Byte) (mask : Word16) =>
      ({ kind := .ownerChanged, subject := axis, detail := mask.setWidth 24,
         extra := bytes24 (byteOf p.val) 0xFF (if c = .close then 1 else 2), direct := none } : Event)
    let left : State := s.setPort p { s.port p with state := if c = .expiry then .expired else .closed }
    let axisFreed : State :=
      if s.counter.claim = some p then
        produce (told 1 0) { left with counter := { s.counter with claim := none, armed := none } }
      else left
    let tracksFreed : State :=
      if tracksWhere owned = [] then axisFreed
      else
        reevaluate .owner (tracksWhere owned)
          (produce (told 0 (maskOf owned))
            { axisFreed with
              tracks := Table.build fun i =>
                if owned i then
                  { s.track i with
                    owner := none
                    held :=
                      if (s.track i).orphan = .hold ∧ (s.track i).effective ≠ .hold then (s.track i).level
                      else (s.track i).held }
                else s.track i })
    t =
      { s with
        counter := if s.counter.claim = some p then { s.counter with claim := none, armed := none } else s.counter
        tracks := tracksFreed.tracks
        session := if s.holdsSession p = true then none else s.session
        store :=
          { s.store with
            op := s.store.op.map fun o => if o.requester = some p then { o with requester := none } else o }
        mail := tracksFreed.mail.put p { queue := [], nextSeq := 0, lost := 0, trackMask := 0, classes := 0 }
        ports := s.ports.put p
          { s.port p with
            state := if c = .expiry then .expired else .closed
            endCause := if c = .close then .closedByRequest else if c = .lineBreak then .lineBreak else .expiry
            cache := none
            timer := none
            refusal := if c = .expiry then (s.port p).refusal else none
            refusals := if c = .expiry then (s.port p).refusals else 0 } } ∧
    (∀ i, (maskOf owned).getLsbD i.val = owned i) ∧
    (∀ i, owned i = false → t.track i = s.track i) ∧
    (∀ i, owned i = true →
      (t.track i).level = t.levelOf i ∧
      (t.track i).pin = if t.levelOf i = (s.track i).level then (s.track i).pin else t.levelOf i && s.oe) ∧
    ∀ q, q ≠ p →
      (s.isOpen q = false → t.box q = s.box q) ∧
      (t.box q).trackMask = (s.box q).trackMask ∧ (t.box q).classes = (s.box q).classes ∧
      ∃ added, (t.box q).queue = (s.box q).queue ++ added

/-- R150, R151: the supervision timer expires only when the supervision time has passed since its start at an OPEN port, and then
the port is reset. -/
def Obligations.SupervisionExpiryResetsThePort : Prop :=
  ∀ (s : State) (p : Port),
    (∀ start, s.isOpen p = true → (s.port p).supervision ≠ 0 → (s.port p).timer = some start →
      (s.port p).supervision * 1000 ≤ (s.time - start).toNat →
        exec (.supervisionExpiry p) s = .next (portReset p .expiry s)) ∧
    ((s.isOpen p = false ∨ (s.port p).supervision = 0 ∨ (s.port p).timer = none ∨
        ∃ start, (s.port p).timer = some start ∧ (s.time - start).toNat < (s.port p).supervision * 1000) →
      exec (.supervisionExpiry p) s = .next s)

/-- R143: a break resets an OPEN port, and closes and clears one that is not; one low period gives one break. Where no fault
of its low period is on record, it acts as the character fault and then the break (log 15). R117: a low period that began before reception, its fault
then on record and not counted, adds no frame error with its break either. Before the load has ended a break is only noted; what
the record says there is the model's choice (log 12). -/
def Obligations.BreakActsOncePerLowPeriod : Prop :=
  ∀ (s : State) (p : Port),
    (s.inService = true ↔ s.lifecycle ≠ .inReset ∧ s.lifecycle ≠ .loading) ∧
    (s.inService = false → exec (.lineBreak p) s = .next (s.setPort p { s.port p with line := .lowBreak })) ∧
    (s.inService = true → (s.port p).line = .lowBreak → exec (.lineBreak p) s = .next s) ∧
    (s.inService = true → (s.port p).line = .high →
      ∃ faulty, exec (.characterFault p []) s = .next faulty ∧ (faulty.port p).line = .lowFault ∧
        exec (.lineBreak p) s = exec (.lineBreak p) faulty) ∧
    (s.inService = true → (s.port p).line = .lowFault →
      (s.isOpen p = true →
        exec (.lineBreak p) s =
          .next ((portReset p .lineBreak s).setPort p { (portReset p .lineBreak s).port p with line := .lowBreak })) ∧
      (s.isOpen p = false →
        exec (.lineBreak p) s =
          .next (s.setPort p
            { s.port p with state := .closed, cache := none, refusal := none, refusals := 0, line := .lowBreak }))) ∧
    (s.lifecycle = .loading → (s.port p).state = .closed → ∀ chars, ∃ faulty loaded broken,
      exec (.characterFault p chars) s = .next faulty ∧ exec .powerUpLoadEnd faulty = .next loaded ∧
      exec (.lineBreak p) loaded = .next broken ∧ loaded.portsReceive = true ∧
      broken.port p = { s.port p with cache := none, refusal := none, refusals := 0, line := .lowBreak })

/-! ## The requests of the ports -/

/-- R165, R174: IDENTIFY in every port state. The revision byte is the part's own, from 1 to 255. -/
def Obligations.IdentifyReportsThePart : Prop :=
  ∃ revision : Byte, revision ≠ 0 ∧
    ∀ (s : State) (p : Port) (seq : Byte), Hears s p → Fresh s p seq (Request.code .identify) [] →
      Completes s p .identify seq [] (heard p s) .ok 0
        ([0x4E, 0x10, revision, byteOf p.val, s.lineRate.setWidth 8] ++ [4, 16, 12, 96, 32, 8, 4, 160])

/-- R149: OPEN in every port state. -/
def Obligations.OpenSetsThePortRecord : Prop :=
  ∀ (s : State) (p : Port) (seq : Byte) (payload : List Byte),
    Hears s p → Fresh s p seq (Request.code .openPort) payload → payload.length = 4 →
    let ms := u16 payload 0
    ((ms = 0 ∨ (10 ≤ ms ∧ ms ≤ 10000)) →
      Completes s p .openPort seq payload
        ((heard p s).setPort p
          { (heard p s).port p with
            state := .opened, supervision := ms, tag := word16 payload 2, endCause := .none
            timer := if ms = 0 then none else some s.time })
        .ok 0 [byteOf p.val, if s.isOpen p = true then 0 else (s.port p).endCause.code]) ∧
    (¬ (ms = 0 ∨ (10 ≤ ms ∧ ms ≤ 10000)) → s.isOpen p = true → Refuses s p .openPort seq payload .range 0) ∧
    (¬ (ms = 0 ∨ (10 ≤ ms ∧ ms ≤ 10000)) → s.isOpen p = false →
      Completes s p .openPort seq payload (heard p s) .range 0 [])

/-- R147, R149, R160: CLOSE at an OPEN port is answered with the flags of the port as it stood and then resets it; at an
EXPIRED port it is answered with the flags of the port as it stood, and then the port becomes CLOSED, its cache empty, its
refusals cleared, its end cause kept. -/
def Obligations.CloseResetsAfterItsResponse : Prop :=
  ∀ (s : State) (p : Port) (seq : Byte), Hears s p → Fresh s p seq (Request.code .closePort) [] →
    let answered : State :=
      sent (heard p s) p seq (Request.code .closePort) (requestCheck seq (Request.code .closePort) []) .ok 0 []
    (s.isOpen p = true → exec (.closePort p seq []) s = .next (portReset p .close answered)) ∧
    ((s.port p).state = .expired →
      exec (.closePort p seq []) s =
        .next (answered.setPort p
          { answered.port p with state := .closed, cache := none, refusal := none, refusals := 0 }))

/-- R166, R167, R175: READ-STATUS reports 62 bytes, and CLEAR then sets the four counters to 0. The slot byte of an IDLE store
and the generation bytes without a boot record are free in each answer (log 11: R175 gives neither). -/
def Obligations.ReadStatusReportsAndClears : Prop :=
  ∀ (s : State) (p : Port) (seq : Byte) (payload : List Byte), Accepts s p .readStatus seq payload →
    ∃ (idleSlot : Byte) (noBootGeneration : Word32) (n : Nat),
      let r := s.port p
      let out : List Byte :=
        ([byteOf p.val] ++ be16Nat r.supervision ++ be16 r.tag ++ be16 r.checkErrors ++ be16 r.frameErrors ++
            be16 r.overruns ++ be16 r.replays) ++
          ((match r.refusal with
              | none => [0, 0, 0, 0, 0, 0, 0, 0, 0, 0]
              | some x => [1, x.status.code, x.code] ++ be16 x.detail ++ [x.seq] ++ be32 x.time) ++ be16 r.refusals) ++
          ((Table.numbers 4).flatMap fun q => [(s.port q).state.code] ++ be16 (s.port q).tag) ++
          (match s.session with
            | none => [0xFF, 0]
            | some e => [byteOf e.holder.val, if e.pending.isSome then 1 else 0]) ++
          (match s.session.bind fun e => if e.holder = p then e.pending else none with
            | none => [0, 0, 0, 0, 0, 0, 0, 0, 0, 0]
            | some pc =>
              [1, pc.condition.code] ++ be24Nat pc.position ++ [pc.direction.code] ++ be16 pc.tag ++
                be16
                  (if pc.deadline.isNone then 0xFFFF
                   else BitVec.ofNat 16 ((1000 * pc.timeout - (s.time - pc.accepted).toNat) / 1000))) ++
          (match s.store.op with
            | none => [0, idleSlot, 0xFF]
            | some o => [o.kind.code, byteOf o.slot.val, portByte o.requester]) ++
          (match s.store.boot with
            | none => [0xFF] ++ be32 noBootGeneration
            | some b => [byteOf b.slot.val] ++ be32 b.generation) ++
          [if s.oe then 1 else 0] ++ be32 s.time
      out.length = 62 ∧
      (u8 payload 0 = 0 → Completes s p .readStatus seq payload { heard p s with choices := n } .ok 0 out) ∧
      (u8 payload 0 = 1 →
        Completes s p .readStatus seq payload
          (State.setPort { heard p s with choices := n } p
            { (heard p s).port p with checkErrors := 0, frameErrors := 0, overruns := 0, replays := 0 }) .ok 0 out) ∧
      (1 < u8 payload 0 → Refuses s p .readStatus seq payload .range 0)

/-- R164: CLEAR-FAULT empties the first-refusal record when it names the recorded status; it is admitted at an OPEN port only. -/
def Obligations.ClearFaultNamesTheRecordedStatus : Prop :=
  (∀ (s : State) (p : Port) (seq : Byte) (payload : List Byte),
    Hears s p → Fresh s p seq (Request.code .clearFault) payload → payload.length ≤ 160 → s.isOpen p = false →
      Completes s p .clearFault seq payload (heard p s) .notOpen 0 []) ∧
  ∀ (s : State) (p : Port) (seq : Byte) (payload : List Byte), Accepts s p .clearFault seq payload →
    ((u8 payload 0 < 2 ∨ 17 < u8 payload 0) → Refuses s p .clearFault seq payload .range 0) ∧
    (2 ≤ u8 payload 0 → u8 payload 0 ≤ 17 →
      ((s.port p).refusal = none → Completes s p .clearFault seq payload (heard p s) .ok 0 []) ∧
      (∀ x, (s.port p).refusal = some x → x.status.code.toNat = u8 payload 0 →
        Completes s p .clearFault seq payload
          ((heard p s).setPort p { (heard p s).port p with refusal := none, refusals := 0 })
          .ok (s.port p).refusals []) ∧
      (∀ x, (s.port p).refusal = some x → x.status.code.toNat ≠ u8 payload 0 →
        Refuses s p .clearFault seq payload .stale (x.status.code.setWidth 16)))

/-- R155: RESTART is refused while another port is OPEN or the store is BUSY; admitted, it is answered and no port receives any
more: a character that arrives shows that the line is at 1, and changes nothing else. -/
def Obligations.RestartWaitsForPortsAndStore : Prop :=
  ∀ (s : State) (p : Port) (seq : Byte), Accepts s p .restart seq [] →
    (∀ q, q ≠ p → s.isOpen q = true → (∀ o, o < q → o ≠ p → s.isOpen o = false) →
      Refuses s p .restart seq [] .inUse (BitVec.ofNat 16 q.val)) ∧
    ((∀ q, q ≠ p → s.isOpen q = false) →
      (∀ o, s.store.op = some o → Refuses s p .restart seq [] .storeBusy (BitVec.ofNat 16 o.slot.val)) ∧
      (s.store.op = none →
        Completes s p .restart seq [] { heard p s with lifecycle := .restarting p } .ok 0 [] ∧
        ∀ t, exec (.restart p seq []) s = .next t → t.portsReceive = false ∧
          ∀ q chars, receiveChars q chars t = if chars = [] then t else t.setPort q { t.port q with line := .high }))

/-! ## The requests of the axis -/

/-- R11, R12, R20: CLAIM-AXIS takes a free claim and reports it, confirms the holder's and is refused OWNED for another's;
RELEASE-AXIS withdraws an armed preset and then frees the claim; CANCEL-PRESET withdraws the preset alone. -/
def Obligations.AxisClaimIsTakenAndReleased : Prop :=
  (∀ (s : State) (p : Port) (seq : Byte), Accepts s p .claimAxis seq [] →
     (s.counter.claim = none →
       Completes s p .claimAxis seq []
         (produce
           { kind := .ownerChanged, subject := 1, detail := 0, extra := bytes24 0xFF (byteOf p.val) 0, direct := none }
           { heard p s with counter := { s.counter with claim := some p } }) .ok 0 []) ∧
     (s.counter.claim = some p → Completes s p .claimAxis seq [] (heard p s) .ok 0 []) ∧
     (∀ q, q ≠ p → s.counter.claim = some q → Refuses s p .claimAxis seq [] .owned (BitVec.ofNat 16 q.val))) ∧
  ∀ (s : State) (p : Port) (seq : Byte),
    (Accepts s p .releaseAxis seq [] →
      (s.counter.claim ≠ some p → Refuses s p .releaseAxis seq [] .notOwner (portWord s.counter.claim)) ∧
      (s.counter.claim = some p → s.counter.armed = none →
        Completes s p .releaseAxis seq []
          (produce
            { kind := .ownerChanged, subject := 1, detail := 0, extra := bytes24 (byteOf p.val) 0xFF 1, direct := none }
            { heard p s with counter := { s.counter with claim := none } }) .ok 0 []) ∧
      (∀ a, s.counter.claim = some p → s.counter.armed = some a →
        Completes s p .releaseAxis seq []
          (produce
            { kind := .ownerChanged, subject := 1, detail := 0, extra := bytes24 (byteOf p.val) 0xFF 1, direct := none }
            { produce
                { kind := .presetWithdrawn, subject := 16 + byteOf a.port.val, detail := BitVec.ofNat 24 a.value,
                  extra := s.counter.turns.setWidth 24, direct := some a.port }
                { heard p s with counter := { s.counter with armed := none } } with
              counter := { s.counter with armed := none, claim := none } }) .ok 0 [])) ∧
    (Accepts s p .cancelPreset seq [] →
      (s.counter.claim ≠ some p → Refuses s p .cancelPreset seq [] .notOwner (portWord s.counter.claim)) ∧
      (s.counter.claim = some p → s.counter.armed = none → Refuses s p .cancelPreset seq [] .state 0) ∧
      (∀ a, s.counter.claim = some p → s.counter.armed = some a →
        Completes s p .cancelPreset seq []
          (produce
            { kind := .presetWithdrawn, subject := byteOf a.port.val, detail := BitVec.ofNat 24 a.value,
              extra := s.counter.turns.setWidth 24, direct := some a.port }
            { heard p s with counter := { s.counter with armed := none } }) .ok 0 []))

/-- R16, R17, R18. -/
def Obligations.PresetPlacesOrArms : Prop :=
  ∀ (s : State) (p : Port) (seq : Byte) (payload : List Byte), Accepts s p .preset seq payload →
    let v := u24 payload 0
    let mode := u8 payload 3
    (s.counter.modulus ≤ v → Refuses s p .preset seq payload .range 0) ∧
    (v < s.counter.modulus → 1 < mode → Refuses s p .preset seq payload .range 1) ∧
    (v < s.counter.modulus → mode ≤ 1 → s.counter.claim ≠ some p →
      Refuses s p .preset seq payload .notOwner (portWord s.counter.claim)) ∧
    (v < s.counter.modulus → mode ≤ 1 → s.counter.claim = some p → s.monitor.signalLoss = true →
      Refuses s p .preset seq payload .state 0) ∧
    (v < s.counter.modulus → mode = 0 → s.counter.claim = some p → s.monitor.signalLoss = false →
      let placed : State :=
        { heard p s with
          counter := { s.counter with p := v, turns := 0, ref := .referenced, r := none, armed := none } }
      Completes s p .preset seq payload
        (reevaluateAll .preset
          (produce { kind := .presetDone, subject := byteOf p.val, detail := BitVec.ofNat 24 v, extra := 0,
                     direct := some p } placed)) .ok 0 []) ∧
    (v < s.counter.modulus → mode = 1 → s.counter.claim = some p → s.monitor.signalLoss = false →
      Completes s p .preset seq payload
        { heard p s with counter := { s.counter with armed := some { value := v, port := p } } } .pending 0 [])

/-- R22, R24: the ranges of the six parameters (a drift tolerance of one byte is in range) and the values their fields carry; the
checks of SET-AXIS in their order; and the change that keeps the geometry. -/
def Obligations.SetAxisChecksAndSetsLimits : Prop :=
  ∀ (s : State) (p : Port) (seq : Byte) (payload : List Byte), Accepts s p .setAxis seq payload →
    let inRange : Nat → Prop := fun i =>
      match i with
      | 0 => 2 ≤ u32 payload 0 ∧ u32 payload 0 ≤ 16777216
      | 1 => u8 payload 4 ≤ 4
      | 2 => u8 payload 5 ≤ 1
      | 3 => 1 ≤ u16 payload 6 ∧ u16 payload 6 ≤ 1000
      | 4 => u24 payload 8 ≤ 16000000
      | _ => True
    let x : AxisConfig :=
      { modulus := u32 payload 0
        inputMode :=
          if u8 payload 4 = 0 then .pulseDir else if u8 payload 4 = 1 then .upDown
          else if u8 payload 4 = 2 then .quadX1 else if u8 payload 4 = 3 then .quadX2 else .quadX4
        invert := u8 payload 5 = 1
        samplePeriod := u16 payload 6
        overspeedLimit := u24 payload 8
        driftTolerance := u8 payload 11 }
    (s.counter.claim ≠ some p → Refuses s p .setAxis seq payload .notOwner (portWord s.counter.claim)) ∧
    (s.counter.claim = some p →
      (∀ i, ¬ inRange i → (∀ j, j < i → inRange j) → Refuses s p .setAxis seq payload .range (BitVec.ofNat 16 i)) ∧
      ((∀ i, inRange i) →
        (s.session ≠ none → Refuses s p .setAxis seq payload .inUse 1) ∧
        (s.session = none →
          ((∃ t, ∃ w ∈ s.active.list t, x.modulus ≤ w.on ∨ x.modulus ≤ w.off) →
            Refuses s p .setAxis seq payload .inUse 2) ∧
          ((¬ ∃ t, ∃ w ∈ s.active.list t, x.modulus ≤ w.on ∨ x.modulus ≤ w.off) →
            x.modulus = s.counter.modulus → x.inputMode = s.counter.inputMode → x.invert = s.counter.invert →
            Completes s p .setAxis seq payload
              { heard p s with
                monitor :=
                  { s.monitor with
                    samplePeriod := x.samplePeriod, overspeedLimit := x.overspeedLimit,
                    driftTolerance := x.driftTolerance } } .ok 0 []))))

/-- R23, R30, R52: a change of geometry. -/
def Obligations.ChangeOfGeometryRestartsTheAxis : Prop :=
  ∀ (s : State) (p : Port) (seq : Byte) (payload : List Byte), Accepts s p .setAxis seq payload →
    let x : AxisConfig :=
      { modulus := u32 payload 0
        inputMode :=
          if u8 payload 4 = 0 then .pulseDir else if u8 payload 4 = 1 then .upDown
          else if u8 payload 4 = 2 then .quadX1 else if u8 payload 4 = 3 then .quadX2 else .quadX4
        invert := u8 payload 5 = 1
        samplePeriod := u16 payload 6
        overspeedLimit := u24 payload 8
        driftTolerance := u8 payload 11 }
    s.counter.claim = some p → 2 ≤ x.modulus → x.modulus ≤ 16777216 → u8 payload 4 ≤ 4 → u8 payload 5 ≤ 1 →
    1 ≤ x.samplePeriod → x.samplePeriod ≤ 1000 → x.overspeedLimit ≤ 16000000 → s.session = none →
    (¬ ∃ t, ∃ w ∈ s.active.list t, x.modulus ≤ w.on ∨ x.modulus ≤ w.off) →
    ¬ (x.modulus = s.counter.modulus ∧ x.inputMode = s.counter.inputMode ∧ x.invert = s.counter.invert) →
    let placed : State :=
      { heard p s with
        counter :=
          { s.counter with
            p := 0, turns := 0, modulus := x.modulus, inputMode := x.inputMode, invert := x.invert, lastDir := .up,
            ref := .unreferenced, r := none, armed := none, resyncCount := true }
        monitor :=
          { s.monitor with
            samplePeriod := x.samplePeriod, overspeedLimit := x.overspeedLimit, driftTolerance := x.driftTolerance,
            periodLength := x.samplePeriod, periodStart := s.time, periodCount := 0, speed := 0, rest := true,
            overspeed := false, lossTouched := s.monitor.signalLoss } }
    let withdrawn : State :=
      match s.counter.armed with
      | none => placed
      | some a =>
        produce
          { kind := .presetWithdrawn, subject := 32 + byteOf a.port.val, detail := BitVec.ofNat 24 a.value, extra := 0,
            direct := some a.port } placed
    let reported : State :=
      if s.counter.ref = .unreferenced then withdrawn
      else produce { kind := .referenceChanged, subject := 0, detail := 5, extra := 0, direct := none } withdrawn
    Completes s p .setAxis seq payload
      (reevaluateAll .reference
        { reported with tracks := Table.build fun i => { s.track i with shift := 0 } }) .ok 0 []

/-- R39. -/
def Obligations.ClearAxisFaultNamesTheFirstKind : Prop :=
  ∀ (s : State) (p : Port) (seq : Byte) (payload : List Byte), Accepts s p .clearAxisFault seq payload →
    ((u8 payload 0 = 0 ∨ 4 < u8 payload 0) → Refuses s p .clearAxisFault seq payload .range 0) ∧
    (1 ≤ u8 payload 0 → u8 payload 0 ≤ 4 →
      (s.monitor.faultRecord = none → Completes s p .clearAxisFault seq payload (heard p s) .ok 0 []) ∧
      (∀ f, s.monitor.faultRecord = some f → f.kind.code.toNat = u8 payload 0 →
        Completes s p .clearAxisFault seq payload
          { heard p s with monitor := { s.monitor with faultRecord := none } } .ok 0 []) ∧
      (∀ f, s.monitor.faultRecord = some f → f.kind.code.toNat ≠ u8 payload 0 →
        Refuses s p .clearAxisFault seq payload .stale (f.kind.code.setWidth 16)))

/-- R168, R169, R176, R177: READ-AXIS and READ-TRACKS report and change nothing. -/
def Obligations.ReadAxisAndReadTracksReport : Prop :=
  ∀ (s : State) (p : Port) (seq : Byte),
    (Accepts s p .readAxis seq [] →
      Completes s p .readAxis seq [] (heard p s) .ok 0
        ((be24Nat s.counter.p ++ be32 s.counter.turns ++ [s.counter.lastDir.code]) ++
          ([s.counter.ref.code] ++
            (match s.counter.r with | none => [0, 0, 0, 0] | some r => 1 :: be24Nat r) ++
            (match s.counter.armed with
              | none => [0, 0, 0, 0, 0]
              | some a => 1 :: (be24Nat a.value ++ [byteOf a.port.val])) ++
            [portByte s.counter.claim]) ++
          (be32Nat s.counter.modulus ++ [s.counter.inputMode.code, boolByte s.counter.invert] ++
            be16Nat s.monitor.samplePeriod ++ be24Nat s.monitor.overspeedLimit ++ [byteOf s.monitor.driftTolerance]) ++
          (be32 (BitVec.ofInt 32 s.monitor.speed) ++ [boolByte s.monitor.rest, boolByte s.monitor.overspeed]) ++
          [boolByte s.monitor.signalLoss, lineCode s.monitor.inFault] ++
          (match s.monitor.faultRecord with
            | none => [0, 0, 0, 0, 0, 0, 0, 0, 0, 0, 0, 0, 0, 0]
            | some f =>
              [1, f.kind.code] ++ be32 f.time ++ be24Nat f.p ++ be32 f.turns ++ [f.seen.setWidth 8]))) ∧
    (Accepts s p .readTracks seq [] → ∃ out,
      Completes s p .readTracks seq [] (heard p s) .ok 0 out ∧ out.length = 112 ∧
      ∀ t : TrackNo,
        (out.drop (7 * t.val)).take 7 =
          [portByte (s.track t).ownerPort, (s.track t).effective.code,
            (if (s.track t).level then 1 else 0) ||| (if (s.track t).pin then 2 else 0), (s.track t).orphan.code] ++
          be16Nat (s.track t).lead ++ [if (s.track t).runUnref then 1 else 0])

/-! ## The requests of the tracks -/

/-- R61, R62. -/
def Obligations.ClaimTracksTakesFreeTracks : Prop :=
  ∀ (s : State) (p : Port) (seq : Byte) (payload : List Byte), Accepts s p .claimTracks seq payload →
    let mask := word16 payload 0
    let conflict := fun t => inMask mask t && s.foreign p t
    let locked := fun t =>
      inMask mask t && (s.track t).owner.isNone &&
        s.session.any fun e => e.isPending && e.holder ≠ p && s.changed e t
    let new := fun t => inMask mask t && (s.track t).owner.isNone
    let claimed : State :=
      { heard p s with
        tracks := Table.build fun t =>
          if new t then { s.track t with owner := some { port := p, mode := (s.track t).effective } } else s.track t }
    (∀ t, (maskOf new).getLsbD t.val = new t) ∧
    (mask = 0 → Refuses s p .claimTracks seq payload .range 0) ∧
    (mask ≠ 0 →
      (∀ t, Lowest conflict t → Refuses s p .claimTracks seq payload .owned (BitVec.ofNat 16 t.val)) ∧
      (NoTrack conflict →
        (∀ t, Lowest locked t → Refuses s p .claimTracks seq payload .locked (BitVec.ofNat 16 t.val)) ∧
        (NoTrack locked →
          (NoTrack new → Completes s p .claimTracks seq payload (heard p s) .ok 0 []) ∧
          (¬ NoTrack new →
            Completes s p .claimTracks seq payload
              (produce
                { kind := .ownerChanged, subject := 0, detail := (maskOf new).setWidth 24,
                  extra := bytes24 0xFF (byteOf p.val) 0, direct := none } claimed)
              .ok (BitVec.ofNat 16 (trackCount new)) []))))

/-- R64, R69: the tracks of the mask become free, HOLD is captured where it is entered, OWNER_CHANGED is reported, and the tracks
are then re-evaluated with cause OWNER. -/
def Obligations.ReleaseTracksFreesTheMask : Prop :=
  ∀ (s : State) (p : Port) (seq : Byte) (payload : List Byte), Accepts s p .releaseTracks seq payload →
    let mask := word16 payload 0
    let missing := fun t => inMask mask t && ! ((s.track t).ownerPort = some p)
    let freed : State :=
      { heard p s with
        tracks := Table.build fun t =>
          if inMask mask t then
            { s.track t with
              owner := none
              held :=
                if (s.track t).orphan = .hold ∧ (s.track t).effective ≠ .hold then (s.track t).level
                else (s.track t).held }
          else s.track t }
    (mask = 0 → Refuses s p .releaseTracks seq payload .range 0) ∧
    (mask ≠ 0 →
      (∀ t, Lowest missing t → Refuses s p .releaseTracks seq payload .notOwner (BitVec.ofNat 16 t.val)) ∧
      (NoTrack missing →
        Completes s p .releaseTracks seq payload
          (reevaluate .owner (tracksWhere (inMask mask))
            (produce
              { kind := .ownerChanged, subject := 0, detail := mask.setWidth 24,
                extra := bytes24 (byteOf p.val) 0xFF 1, direct := none } freed)) .ok 0 []))

/-- R67, R68, R69: the ranges of the five parameters and the values their fields carry, the check of ownership, and the four
values applied together. -/
def Obligations.SetTrackAppliesItsFourValues : Prop :=
  ∀ (s : State) (p : Port) (seq : Byte) (payload : List Byte), Accepts s p .setTrack seq payload →
    let inRange : Nat → Prop := fun i =>
      match i with
      | 0 => u8 payload 0 ≤ 15
      | 1 => u8 payload 1 ≤ 3
      | 2 => u8 payload 2 = 0 ∨ u8 payload 2 = 2 ∨ u8 payload 2 = 3
      | 3 => u16 payload 3 ≤ 20000
      | 4 => u8 payload 5 ≤ 1
      | _ => True
    (∀ i, ¬ inRange i → (∀ j, j < i → inRange j) → Refuses s p .setTrack seq payload .range (BitVec.ofNat 16 i)) ∧
    ((∀ i, inRange i) → ∃ t : TrackNo, t.val = u8 payload 0 ∧
      let x : TrackParams :=
        { mode := if u8 payload 1 = 0 then .cam else if u8 payload 1 = 1 then .on else if u8 payload 1 = 2 then .off else .hold
          orphan := if u8 payload 2 = 0 then .cam else if u8 payload 2 = 2 then .off else .hold
          lead := u16 payload 3
          runUnref := u8 payload 5 = 1 }
      let before := s.track t
      (before.ownerPort ≠ some p → Refuses s p .setTrack seq payload .notOwner (portWord before.ownerPort)) ∧
      (before.ownerPort = some p →
        Completes s p .setTrack seq payload
          (reevaluate .mode [t]
            ((heard p s).setTrack t
              { before with
                owner := some { port := p, mode := x.mode }
                orphan := x.orphan
                lead := x.lead
                runUnref := x.runUnref
                held := if x.mode = .hold ∧ before.effective ≠ .hold then before.level else before.held
                shift :=
                  if x.lead = before.lead then before.shift
                  else (s.monitor.speed * (x.lead : Int)).tdiv 1000000 })) .ok 0 []))

/-! ## The requests of the edit session -/

/-- R80. -/
def Obligations.OpenEditCreatesTheSession : Prop :=
  ∀ (s : State) (p : Port) (seq : Byte) (payload : List Byte), Accepts s p .openEdit seq payload →
    (1 < u8 payload 0 → Refuses s p .openEdit seq payload .range 0) ∧
    (u8 payload 0 ≤ 1 →
      (∀ e, s.session = some e → e.holder ≠ p →
        Refuses s p .openEdit seq payload .locked (BitVec.ofNat 16 e.holder.val)) ∧
      (∀ e, s.session = some e → e.holder = p →
        Refuses s p .openEdit seq payload .state (if e.pending.isSome then 1 else 0)) ∧
      (s.session = none → u8 payload 0 = 0 →
        Completes s p .openEdit seq payload
          { heard p s with session := some { holder := p, shadow := s.active, pending := none } }
          .ok (BitVec.ofNat 16 s.active.total) []) ∧
      (s.session = none → u8 payload 0 = 1 →
        Completes s p .openEdit seq payload
          { heard p s with
            session := some
              { holder := p, shadow := { lists := Table.build fun _ => [], tag := 0 }, pending := none } } .ok 0 []))

/-- R83, R84: the checks of WRITE-WINDOWS in their order, and the write. -/
def Obligations.WriteWindowsReplacesOneList : Prop :=
  ∀ (s : State) (p : Port) (seq : Byte) (payload : List Byte), Accepts s p .writeWindows seq payload →
    let ws := windowsOf payload
    (15 < u8 payload 0 → Refuses s p .writeWindows seq payload .range 0) ∧
    (∀ t : TrackNo, t.val = u8 payload 0 →
      (s.session = none → Refuses s p .writeWindows seq payload .noSession 0xFFFF) ∧
      (∀ e, s.session = some e → e.holder ≠ p →
        Refuses s p .writeWindows seq payload .noSession (BitVec.ofNat 16 e.holder.val)) ∧
      (∀ e, s.session = some e → e.holder = p →
        (∀ q, q ≠ p → (s.track t).ownerPort = some q →
          Refuses s p .writeWindows seq payload .notOwner (BitVec.ofNat 16 q.val)) ∧
        (s.foreign p t = false →
          (e.pending ≠ none → Refuses s p .writeWindows seq payload .state 1) ∧
          (e.pending = none →
            (∀ r i, checkList s.counter.modulus ws = some (r, i) →
              Refuses s p .writeWindows seq payload .invalidWindows (BitVec.ofNat 16 (256 * r.code.toNat + i))) ∧
            (checkList s.counter.modulus ws = none →
              (96 < e.shadow.total - (e.shadow.list t).length + ws.length →
                Refuses s p .writeWindows seq payload .poolFull
                  (BitVec.ofNat 16 (e.shadow.total - (e.shadow.list t).length + ws.length))) ∧
              (e.shadow.total - (e.shadow.list t).length + ws.length ≤ 96 →
                Completes s p .writeWindows seq payload
                  { heard p s with
                    session := some { e with shadow := { e.shadow with lists := e.shadow.lists.put t ws } } }
                  .ok (BitVec.ofNat 16 (e.shadow.total - (e.shadow.list t).length + ws.length)) []))))))

/-- R56, R57: READ-WINDOWS of either bank. -/
def Obligations.ReadWindowsReportsOneList : Prop :=
  ∀ (s : State) (p : Port) (seq : Byte) (payload : List Byte), Accepts s p .readWindows seq payload →
    let answer := fun (bank : Byte) (t : TrackNo) (b : Bank) =>
      Completes s p .readWindows seq payload (heard p s) .ok 0
        ([bank, byteOf t.val] ++ be16 b.tag ++ be32Nat s.counter.modulus ++
          [byteOf b.total, byteOf (b.list t).length] ++
          (b.list t).flatMap fun w => be24Nat w.on ++ be24Nat w.off)
    (1 < u8 payload 0 → Refuses s p .readWindows seq payload .range 0) ∧
    (u8 payload 0 ≤ 1 → 15 < u8 payload 1 → Refuses s p .readWindows seq payload .range 1) ∧
    (∀ t : TrackNo, t.val = u8 payload 1 →
      (u8 payload 0 = 0 → answer 0 t s.active) ∧
      (u8 payload 0 = 1 →
        (s.session = none → Refuses s p .readWindows seq payload .noSession 0xFFFF) ∧
        (∀ e, s.session = some e → e.holder ≠ p →
          Refuses s p .readWindows seq payload .noSession (BitVec.ofNat 16 e.holder.val)) ∧
        (∀ e, s.session = some e → e.holder = p → answer 1 t e.shadow)))

/-- R86, R87, R88, R89, R95: the ranges of the five parameters (any tag is in range), the checks of COMMIT in their order, the
swap of an IMMEDIATE one, and the pending commit. -/
def Obligations.CommitSwapsOrWaits : Prop :=
  ∀ (s : State) (p : Port) (seq : Byte) (payload : List Byte), Accepts s p .commit seq payload →
    let tag := word16 payload 0
    let inRange : Nat → Prop := fun i =>
      match i with
      | 1 => u8 payload 2 ≤ 3
      | 2 => u24 payload 3 < s.counter.modulus
      | 3 => u8 payload 6 ≤ 2
      | 4 => u16 payload 7 ≤ 60000
      | _ => True
    (∀ i, ¬ inRange i → (∀ j, j < i → inRange j) → Refuses s p .commit seq payload .range (BitVec.ofNat 16 i)) ∧
    ((∀ i, inRange i) →
      (s.session = none → Refuses s p .commit seq payload .noSession 0xFFFF) ∧
      (∀ e, s.session = some e → e.holder ≠ p →
        Refuses s p .commit seq payload .noSession (BitVec.ofNat 16 e.holder.val)) ∧
      (∀ e, s.session = some e → e.holder = p →
        (∀ t, Lowest (fun t => s.changed e t && s.foreign p t) t →
          Refuses s p .commit seq payload .notOwner (BitVec.ofNat 16 t.val)) ∧
        (NoTrack (fun t => s.changed e t && s.foreign p t) →
          (e.pending ≠ none → Refuses s p .commit seq payload .state 1) ∧
          (e.pending = none →
            (u8 payload 2 = 0 →
              Completes s p .commit seq payload
                (reevaluateAll .swap
                  (produce
                    { kind := .swapDone, subject := byteOf p.val, detail := tag.setWidth 24,
                      extra := s.counter.turns.setWidth 24, direct := some p }
                    { heard p s with active := { lists := e.shadow.lists, tag := tag }, session := none }))
                .ok (BitVec.ofNat 16 (trackCount (s.changed e))) []) ∧
            (1 ≤ u8 payload 2 →
              Completes s p .commit seq payload
                { heard p s with
                  session := some
                    { e with
                      pending := some
                        { condition :=
                            if u8 payload 2 = 1 then .atPosition else if u8 payload 2 = 2 then .atIndex else .atRest
                          position := u24 payload 3
                          direction := if u8 payload 6 = 0 then .up else if u8 payload 6 = 1 then .down else .either
                          timeout := u16 payload 7, accepted := s.time
                          deadline :=
                            if u16 payload 7 = 0 then none
                            else some (s.time + BitVec.ofNat 32 (1000 * u16 payload 7))
                          tag := tag } } }
                .pending (BitVec.ofNat 16 (trackCount (s.changed e))) [])))))

/-- R98, R99, R96: ABORT-EDIT ends the session, or the pending commit alone; a pending commit whose timeout has passed is
withdrawn with cause TIMEOUT, and no other. -/
def Obligations.PendingCommitsEndByRequestOrDeadline : Prop :=
  (∀ (s : State) (p : Port) (seq : Byte) (payload : List Byte), Accepts s p .abortEdit seq payload →
     (1 < u8 payload 0 → Refuses s p .abortEdit seq payload .range 0) ∧
     (u8 payload 0 ≤ 1 →
       (s.session = none → Refuses s p .abortEdit seq payload .noSession 0xFFFF) ∧
       (∀ e, s.session = some e → e.holder ≠ p →
         Refuses s p .abortEdit seq payload .noSession (BitVec.ofNat 16 e.holder.val)) ∧
       (∀ e, s.session = some e → e.holder = p →
         (u8 payload 0 = 0 → e.pending = none →
           Completes s p .abortEdit seq payload { heard p s with session := none } .ok 0 []) ∧
         (∀ pc, u8 payload 0 = 0 → e.pending = some pc →
           Completes s p .abortEdit seq payload
             (produce
               { kind := .commitWithdrawn, subject := byteOf p.val, detail := bytes24 2 0 0 ||| pc.tag.setWidth 24,
                 extra := s.counter.turns.setWidth 24, direct := some p } { heard p s with session := none }) .ok 0 []) ∧
         (u8 payload 0 = 1 → e.pending = none → Refuses s p .abortEdit seq payload .state 0) ∧
         (∀ pc, u8 payload 0 = 1 → e.pending = some pc →
           Completes s p .abortEdit seq payload
             (produce
               { kind := .commitWithdrawn, subject := byteOf p.val, detail := bytes24 1 0 0 ||| pc.tag.setWidth 24,
                 extra := s.counter.turns.setWidth 24, direct := some p }
               { heard p s with session := some { e with pending := none } }) .ok 0 [])))) ∧
  ∀ s : State,
    (∀ e pc, s.session = some e → e.pending = some pc → pc.timeout ≠ 0 →
      pc.timeout * 1000 ≤ (s.time - pc.accepted).toNat →
        exec .commitTimeout s =
          .next (produce
            { kind := .commitWithdrawn, subject := byteOf e.holder.val, detail := pc.tag.setWidth 24,
              extra := s.counter.turns.setWidth 24, direct := some e.holder }
            { s with session := some { e with pending := none } })) ∧
    ((∀ e pc, s.session = some e → e.pending = some pc →
        pc.timeout = 0 ∨ (s.time - pc.accepted).toNat < pc.timeout * 1000) →
      exec .commitTimeout s = .next s)

/-! ## The requests of the store -/

/-- R104, R105: STORE-SLOT takes its snapshot and starts the write. -/
def Obligations.StoreSlotTakesItsSnapshot : Prop :=
  ∀ (s : State) (p : Port) (seq : Byte) (payload : List Byte), Accepts s p .storeSlot seq payload →
    (3 < u8 payload 0 → Refuses s p .storeSlot seq payload .range 0) ∧
    (u8 payload 0 ≤ 3 → 1 < u8 payload 1 → Refuses s p .storeSlot seq payload .range 1) ∧
    (∀ i : SlotNo, i.val = u8 payload 0 → u8 payload 1 ≤ 1 →
      (s.counter.claim ≠ some p → Refuses s p .storeSlot seq payload .notOwner (portWord s.counter.claim)) ∧
      (s.counter.claim = some p →
        (∀ o, s.store.op = some o →
          Refuses s p .storeSlot seq payload .storeBusy (BitVec.ofNat 16 o.slot.val)) ∧
        (s.store.op = none →
          (∀ j g, s.slot j = .valid g → g.generation = 0xFFFFFFFF →
            (∀ k h, k < j → s.slot k = .valid h → h.generation ≠ 0xFFFFFFFF) →
            Refuses s p .storeSlot seq payload .slotState (BitVec.ofNat 16 j.val)) ∧
          ((∀ j g, s.slot j = .valid g → g.generation ≠ 0xFFFFFFFF) → ∃ n : Word32,
            (∀ j g, s.slot j = .valid g → g.generation.toNat < n.toNat) ∧
            ((∀ j g, s.slot j ≠ .valid g) → n = 1) ∧
            ((∃ j g, s.slot j = .valid g) → ∃ j g, s.slot j = .valid g ∧ n.toNat = g.generation.toNat + 1) ∧
            Completes s p .storeSlot seq payload
              { heard p s with
                store :=
                  { s.store with
                    op := some { kind := .store, slot := i, requester := some p }
                    slots := s.store.slots.put i (.writing
                      { generation := n, boot := u8 payload 1 = 1, tag := s.active.tag, modulus := s.counter.modulus
                        inputMode := s.counter.inputMode, invert := s.counter.invert
                        samplePeriod := s.monitor.samplePeriod, overspeedLimit := s.monitor.overspeedLimit
                        driftTolerance := s.monitor.driftTolerance
                        settings := Table.build fun t =>
                          { orphan := (s.track t).orphan, lead := (s.track t).lead, runUnref := (s.track t).runUnref }
                        lists := s.active.lists }) } }
              .pending (n.setWidth 16) []))))

/-- R108, R112: ERASE-SLOT starts an erase; READ-SLOT reports a slot by its state and changes nothing. -/
def Obligations.EraseSlotAndReadSlot : Prop :=
  (∀ (s : State) (p : Port) (seq : Byte) (payload : List Byte), Accepts s p .eraseSlot seq payload →
     (3 < u8 payload 0 → Refuses s p .eraseSlot seq payload .range 0) ∧
     (∀ i : SlotNo, i.val = u8 payload 0 →
       (s.counter.claim ≠ some p → Refuses s p .eraseSlot seq payload .notOwner (portWord s.counter.claim)) ∧
       (s.counter.claim = some p →
         (∀ o, s.store.op = some o →
           Refuses s p .eraseSlot seq payload .storeBusy (BitVec.ofNat 16 o.slot.val)) ∧
         (s.store.op = none →
           Completes s p .eraseSlot seq payload
             { heard p s with
               store :=
                 { s.store with
                   op := some { kind := .erase, slot := i, requester := some p }
                   slots := s.store.slots.put i .erasing } } .pending 0 [])))) ∧
  ∀ (s : State) (p : Port) (seq : Byte) (payload : List Byte), Accepts s p .readSlot seq payload →
    (3 < u8 payload 0 → Refuses s p .readSlot seq payload .range 0) ∧
    (∀ i : SlotNo, i.val = u8 payload 0 →
      (∀ g, (s.slot i = .valid g ∨ s.slot i = .writing g) →
        Completes s p .readSlot seq payload (heard p s) .ok 0
          ([byteOf i.val, (s.slot i).code] ++ be32 g.generation ++ [if g.boot then 1 else 0] ++ be16 g.tag ++
            be32Nat g.modulus ++ [byteOf (totalOf g.lists)])) ∧
      ((∀ g, s.slot i ≠ .valid g ∧ s.slot i ≠ .writing g) →
        Completes s p .readSlot seq payload (heard p s) .ok 0
          ([byteOf i.val, (s.slot i).code] ++ [0, 0, 0, 0, 0, 0, 0, 0, 0, 0, 0, 0])))

/-- R110, R111: LOAD-SLOT brings a VALID image of the modulus in force into the shadow bank. -/
def Obligations.LoadSlotFillsTheShadow : Prop :=
  ∀ (s : State) (p : Port) (seq : Byte) (payload : List Byte), Accepts s p .loadSlot seq payload →
    (3 < u8 payload 0 → Refuses s p .loadSlot seq payload .range 0) ∧
    (∀ i : SlotNo, i.val = u8 payload 0 →
      (s.session = none → Refuses s p .loadSlot seq payload .noSession 0xFFFF) ∧
      (∀ e, s.session = some e → e.holder ≠ p →
        Refuses s p .loadSlot seq payload .noSession (BitVec.ofNat 16 e.holder.val)) ∧
      (∀ e, s.session = some e → e.holder = p →
        (e.pending ≠ none → Refuses s p .loadSlot seq payload .state 1) ∧
        (e.pending = none →
          (∀ o, s.store.op = some o →
            Refuses s p .loadSlot seq payload .storeBusy (BitVec.ofNat 16 o.slot.val)) ∧
          (s.store.op = none →
            ((∀ g, s.slot i ≠ .valid g) →
              Refuses s p .loadSlot seq payload .slotState ((s.slot i).code.setWidth 16)) ∧
            (∀ g, s.slot i = .valid g → g.modulus ≠ s.counter.modulus →
              Refuses s p .loadSlot seq payload .mismatch 0) ∧
            (∀ g, s.slot i = .valid g → g.modulus = s.counter.modulus →
              Completes s p .loadSlot seq payload
                { heard p s with session := some { e with shadow := { lists := g.lists, tag := g.tag } } }
                .ok (BitVec.ofNat 16 (totalOf g.lists)) [])))))

/-! ## The requests of the event unit -/

/-- R126, R128: SUBSCRIBE replaces the subscription and returns the old one; FETCH-EVENTS removes the oldest records, returns
them with the lost count, and zeroes it. No other port's box changes. -/
def Obligations.SubscribeAndFetchEvents : Prop :=
  ∀ (s : State) (p : Port) (seq : Byte) (payload : List Byte),
    (Accepts s p .subscribe seq payload →
      (31 < u8 payload 2 → Refuses s p .subscribe seq payload .range 1) ∧
      (u8 payload 2 ≤ 31 →
        Completes s p .subscribe seq payload
          { heard p s with
            mail := s.mail.put p
              { s.box p with trackMask := word16 payload 0, classes := BitVec.ofNat 5 (u8 payload 2) } }
          .ok 0 (be16 (s.box p).trackMask ++ [(s.box p).classes.setWidth 8]))) ∧
    (Accepts s p .fetchEvents seq payload →
      let n := u8 payload 0
      ((n = 0 ∨ 8 < n) → Refuses s p .fetchEvents seq payload .range 0) ∧
      (1 ≤ n → n ≤ 8 →
        Completes s p .fetchEvents seq payload
          { heard p s with mail := s.mail.put p { s.box p with queue := (s.box p).queue.drop n, lost := 0 } }
          .ok (BitVec.ofNat 16 ((s.box p).queue.length - n))
          (be16 (s.box p).lost ++ [byteOf (min n (s.box p).queue.length)] ++
            ((s.box p).queue.take n).flatMap fun x =>
              be16 x.seq ++ [x.kind.code, x.subject] ++ be24 x.detail ++ be32 x.time ++ be24 x.position ++ be24 x.extra)))

/-! ## Invariants that every step keeps -/

/-- R52, R59, R70, R76: in service every level is the one Table 4-2 gives, every line is driven ON exactly where its level is ON
and OE is active, and every shift is the lead at the speed in force; before service every line is OFF. -/
def Obligations.EveryStepKeepsLevelsPinsAndShifts : Prop :=
  ∀ s t : State, bootLaw s ∧ pinLaw s ∧ levelLaw s ∧ shiftLaw s → step s = .next t →
    bootLaw t ∧ pinLaw t ∧ levelLaw t ∧ shiftLaw t

/-- R124: a queue holds at most 32 records, and a lost count above 0 is found only with a full queue. -/
def Obligations.EveryStepKeepsTheQueues : Prop :=
  ∀ s t : State, mailLaw s → step s = .next t → mailLaw t

/-- R11, R60, R79, R107, R148: whoever holds something is OPEN. -/
def Obligations.EveryStepKeepsHoldersOpen : Prop :=
  ∀ s t : State, holdersLaw s → step s = .next t → holdersLaw t

/-- R15, R47, R50, R82, R103: every position lies on the ring, r is held only while REFERENCED, and both banks and every VALID
image are valid. -/
def Obligations.EveryStepKeepsTheRingAndItsPrograms : Prop :=
  ∀ s t : State, bootLaw s ∧ ringLaw s ∧ referenceLaw s → step s = .next t → bootLaw t ∧ ringLaw t ∧ referenceLaw t

/-- R102: VALID slots carry different generations, and exactly the slot of the operation in flight is in WRITING or ERASING. -/
def Obligations.EveryStepKeepsTheStore : Prop :=
  ∀ s t : State, bootLaw s ∧ storeLaw s → step s = .next t → bootLaw t ∧ storeLaw t

/-- R87: while a commit is pending, every changed track is owned by the committing port or by none. -/
def Obligations.EveryStepKeepsPendingCommitsOwned : Prop :=
  ∀ s t : State, bootLaw s ∧ commitLaw s → step s = .next t → bootLaw t ∧ commitLaw t
end

