-- ==== Sys2Proof/Laws/Table.lean ====
section
/-! SUPPORT. Laws of the tables: read after write, read after build. -/

namespace Sys2Proof

variable {n : Nat} {α : Type}

@[simp] theorem Table.look_put_same (t : Table n α) (i : Fin n) (x : α) : (t.put i x).look i = x := by
  simp [Table.look, Table.put]

theorem Table.look_put_ne (t : Table n α) {i j : Fin n} (x : α) (h : j ≠ i) : (t.put i x).look j = t.look j := by
  have : i.val ≠ j.val := fun e => h (Fin.ext e.symm)
  simp [Table.look, Table.put, this, Vector.getElem_set_ne]

theorem Table.look_put (t : Table n α) (i j : Fin n) (x : α) :
    (t.put i x).look j = if j = i then x else t.look j := by
  by_cases h : j = i
  · subst h; simp
  · simp [h, Table.look_put_ne]

@[simp] theorem Table.look_build (f : Fin n → α) (i : Fin n) : (Table.build f).look i = f i := by
  simp [Table.look, Table.build]

theorem Table.ext_look {t u : Table n α} (h : ∀ i, t.look i = u.look i) : t = u :=
  Vector.ext fun i hi => by have := h ⟨i, hi⟩; simpa only [Table.look, Fin.getElem_fin] using this

@[simp] theorem Table.put_look (t : Table n α) (i : Fin n) : t.put i (t.look i) = t :=
  Table.ext_look fun j => by rw [Table.look_put]; split <;> simp_all

@[simp] theorem Table.put_put (t : Table n α) (i : Fin n) (x y : α) : (t.put i x).put i y = t.put i y :=
  Table.ext_look fun j => by simp only [Table.look_put]; split <;> rfl

@[simp] theorem Table.build_look (t : Table n α) : Table.build t.look = t := Table.ext_look fun i => by simp

@[simp] theorem Table.look_replicate (x : α) (i : Fin n) : Table.look (Vector.replicate n x) i = x := by
  simp [Table.look]

@[simp] theorem Table.mem_numbers (i : Fin n) : i ∈ Table.numbers n := List.mem_finRange i

theorem Table.numbers_nodup (n : Nat) : (Table.numbers n).Nodup := List.nodup_finRange n

end Sys2Proof
end

