-- ==== Sys2Proof/Laws/Sets.lean ====
section
/-! SUPPORT. The lowest member of a set of tracks, ports or slots, as the searches of the requests find it. -/

namespace Sys2Proof

/-- A search through the numbers in ascending order finds the lowest that has the property. -/
theorem Table.find_numbers_some {n : Nat} (f : Fin n → Bool) (i : Fin n) :
    (Table.numbers n).find? f = some i ↔ f i = true ∧ ∀ j, j < i → f j = false := by
  rw [List.find?_eq_some_iff_getElem]
  constructor
  · rintro ⟨hf, k, hk, hki, hlow⟩
    refine ⟨hf, fun j hj => ?_⟩
    have hk' : k = i.val := by
      have := congrArg Fin.val hki
      simpa [Table.numbers] using this
    have := hlow j.val (by rw [hk']; exact hj)
    simpa [Table.numbers] using this
  · rintro ⟨hf, hlow⟩
    refine ⟨hf, i.val, by simp [Table.numbers], by simp [Table.numbers], fun j hj => ?_⟩
    have := hlow ⟨j, by omega⟩ hj
    simpa [Table.numbers] using this

/-- A search finds nothing where nothing has the property. -/
theorem Table.find_numbers_none {n : Nat} (f : Fin n → Bool) :
    (Table.numbers n).find? f = none ↔ ∀ i, f i = false := by
  simp [List.find?_eq_none]

namespace Machine

theorem find_lowest {f : TrackNo → Bool} {t : TrackNo} (h : Lowest f t) : (Table.numbers 16).find? f = some t :=
  (Table.find_numbers_some f t).mpr h

theorem find_noTrack {f : TrackNo → Bool} (h : NoTrack f) : (Table.numbers 16).find? f = none :=
  (Table.find_numbers_none f).mpr h

/-- A set has a lowest track or none at all. -/
theorem lowest_or_noTrack (f : TrackNo → Bool) : (∃ t, Lowest f t) ∨ NoTrack f := by
  cases h : (Table.numbers 16).find? f with
  | none => exact Or.inr ((Table.find_numbers_none f).mp h)
  | some t => exact Or.inl ⟨t, (Table.find_numbers_some f t).mp h⟩

@[simp] theorem mem_tracksWhere (f : TrackNo → Bool) (t : TrackNo) : t ∈ tracksWhere f ↔ f t = true := by
  simp [tracksWhere]

theorem tracksWhere_isEmpty (f : TrackNo → Bool) : (tracksWhere f).isEmpty = true ↔ NoTrack f := by
  simp [tracksWhere, NoTrack]

theorem tracksWhere_nodup (f : TrackNo → Bool) : (tracksWhere f).Nodup := (Table.numbers_nodup 16).filter _

/-- Bit `i` of a byte or mask that is built from a list of bits. -/
theorem getLsbD_ofBoolListLE (l : List Bool) (i : Nat) : (BitVec.ofBoolListLE l).getLsbD i = l.getD i false := by
  induction l generalizing i with
  | nil => simp [BitVec.ofBoolListLE]
  | cons b l ih =>
    cases i with
    | zero => simp [BitVec.ofBoolListLE]
    | succ i => simp [BitVec.ofBoolListLE, ih]

/-- Bit `t` of the mask of a set. -/
theorem inMask_maskOf (f : TrackNo → Bool) (t : TrackNo) : inMask (maskOf f) t = f t := by
  have h := t.isLt
  unfold inMask maskOf
  erw [getLsbD_ofBoolListLE]
  simp [List.getD, h]

/-- The mask of the tracks of a mask is the mask. -/
theorem maskOf_inMask (mask : Word16) : maskOf (inMask mask) = mask := by
  refine BitVec.eq_of_getLsbD_eq fun i hi => ?_
  have := inMask_maskOf (inMask mask) ⟨i, by simpa using hi⟩
  simpa [inMask] using this

end Machine

end Sys2Proof
end

