-- ==== Sys2Proof/Laws/Clock.lean ====
section
/-! SUPPORT. When each of the things that the time base brings about is due. -/

namespace Sys2Proof.Machine

variable (s : State)

/-- R155. -/
theorem restartDue_iff : restartDue s = true ↔ ∃ p, s.lifecycle = .restarting p ∧ (s.port p).tx = none := by
  unfold restartDue
  split
  · next p h => simp [h]
  · next h => simp; intro p hp; exact absurd hp (h p)

/-- R34. -/
theorem holdDue_iff :
    s.holdDue = true ↔
      s.monitor.signalLoss = true ∧ s.monitor.inFault = ⟨false, false, false⟩ ∧
        ∃ start, s.monitor.restoreHold = some start ∧ 1000 ≤ (s.time - start).toNat := by
  unfold State.holdDue State.elapsed
  rcases s.monitor.inFault with ⟨a, b, c⟩
  cases s.monitor.restoreHold <;> simp [noLines, and_assoc]

/-- R150. -/
theorem supervisionDue_iff (p : Port) :
    s.supervisionDue p = true ↔
      s.isOpen p = true ∧ (s.port p).supervision ≠ 0 ∧
        ∃ start, (s.port p).timer = some start ∧ (s.port p).supervision * 1000 ≤ (s.time - start).toNat := by
  unfold State.supervisionDue State.elapsed
  cases (s.port p).timer <;> simp [and_assoc]

/-- R96. -/
theorem commitDue_iff :
    s.commitDue = true ↔
      ∃ e pc, s.session = some e ∧ e.pending = some pc ∧ pc.timeout ≠ 0 ∧
        pc.timeout * 1000 ≤ (s.time - pc.accepted).toNat := by
  unfold State.commitDue State.elapsed State.pendingCommit
  cases s.session with
  | none => simp
  | some e => cases h : e.pending <;> simp [h]

/-- R26. -/
theorem periodDue_iff :
    s.periodDue = true ↔
      s.inService = true ∧ s.monitor.periodLength * 1000 ≤ (s.time - s.monitor.periodStart).toNat := by
  unfold State.periodDue State.elapsed
  rw [Bool.and_eq_true, decide_eq_true_eq]

theorem expiredPort_some {s : State} {p : Port} (h : s.supervisionDue p = true)
    (low : ∀ q, q < p → s.supervisionDue q = false) : expiredPort s = some p :=
  (Table.find_numbers_some _ _).2 ⟨h, low⟩

theorem expiredPort_none {s : State} (h : ∀ p, s.supervisionDue p = false) : expiredPort s = none :=
  (Table.find_numbers_none _).2 h

end Sys2Proof.Machine
end

