-- ==== Sys2Proof/Laws/Events.lean ====
section
/-! SUPPORT. The records of Table 10-5 whose fields the model packs, spelled out. -/

namespace Sys2Proof.Machine

/-- PRESET_WITHDRAWN by its cause: CANCEL 0, RELEASE 1, GEOMETRY 2. -/
theorem presetWithdrawnEvent_eq (s : State) (cause : Byte) (a : Armed) (h : cause = 0 ∨ cause = 1 ∨ cause = 2) :
    presetWithdrawnEvent s cause a =
      { kind := .presetWithdrawn, subject := 16 * cause + byteOf a.port.val, detail := BitVec.ofNat 24 a.value,
        extra := s.counter.turns.setWidth 24, direct := some a.port } := by
  have key : ∀ p : Port, halves cause p = 16 * cause + byteOf p.val := by
    rcases h with rfl | rfl | rfl <;> decide
  unfold presetWithdrawnEvent
  rw [key]
  rfl

/-- COMMIT_WITHDRAWN: the cause above the two bytes of the tag. -/
theorem commitWithdrawnEvent_eq (s : State) (cause : Byte) (p : Port) (tag : Word16) :
    commitWithdrawnEvent s cause p tag =
      { kind := .commitWithdrawn, subject := byteOf p.val, detail := bytes24 cause 0 0 ||| tag.setWidth 24,
        extra := s.counter.turns.setWidth 24, direct := some p } := by
  have key : (cause ++ tag : BitVec 24) = bytes24 cause 0 0 ||| tag.setWidth 24 := by
    ext i hi
    simp only [bytes24, BitVec.getElem_append, BitVec.getElem_or, BitVec.getElem_setWidth]
    split <;> rename_i h1
    · simp [BitVec.getLsbD_eq_getElem h1]
      omega
    · have : tag.getLsbD i = false := BitVec.getLsbD_of_ge _ _ (by omega)
      simp [this, Nat.sub_sub, show ¬ i - 8 < 8 by omega, show ¬ i < 8 by omega]
  unfold commitWithdrawnEvent
  rw [key]
  rfl

end Sys2Proof.Machine
end

