-- ==== Sys2Proof/Laws/Faults.lean ====
section
/-! SUPPORT. The operations of a fault and of a swap are what the rules state. -/

namespace Sys2Proof.Machine

theorem note_recorded (k : FaultKind) (s : State) :
    FaultRecord.note s.monitor.faultRecord k s.time s.counter.p s.counter.turns = recorded k s := by
  unfold FaultRecord.note recorded
  cases s.monitor.faultRecord <;> rfl

/-- R31, steps 1 and 2. -/
theorem noteFault_reported (k : FaultKind) (d : Word24) (s : State) : noteFault k d s = reported k d s := by
  unfold noteFault
  rw [note_recorded]
  rfl

/-- R14. -/
theorem lowerReference_fallen (k : FaultKind) (s : State) : lowerReference k s = fallen k s := by
  have h : referenceChangedEvent s .faulted k.code =
      { kind := .referenceChanged, subject := 2, detail := k.code.setWidth 24, extra := s.counter.turns.setWidth 24,
        direct := none } := by
    cases k <;> rfl
  unfold lowerReference
  rw [h]
  rfl

/-- R31. -/
theorem raiseLowering_raised (k : FaultKind) (d : Word24) (s : State) : raiseLowering k d s = raised k d s := by
  simp only [raiseLowering, raised, noteFault_reported, lowerReference_fallen]

/-- R95. -/
theorem swapWith_swapped (e : EditSession) (tag : Word16) (s : State) : swapWith e tag s = swapped e tag s := rfl

theorem swapPending_swapped {s : State} {e : EditSession} {pc : PendingCommit} (he : s.session = some e)
    (hp : e.pending = some pc) : swapPending s = swapped e pc.tag s := by
  simp only [swapPending, he, hp, swapWith_swapped]

/-- Where no commit is pending, none is met. -/
theorem pendingCommit_some {s : State} {pc : PendingCommit} (h : s.pendingCommit = some pc) :
    ∃ e, s.session = some e ∧ e.pending = some pc := by
  unfold State.pendingCommit at h
  cases hs : s.session with
  | none => simp [hs] at h
  | some e => exact ⟨e, rfl, by simpa [hs] using h⟩

end Sys2Proof.Machine
end

