-- ==== Sys2Proof/Laws/State.lean ====
section
/-! SUPPORT. One lemma per field per update of the state, true by rfl; then the accessors of a port, a mailbox and a track after
an update. -/

namespace Sys2Proof.Machine

variable (s : State)

/-! ### `setLifecycle` -/
@[simp] theorem setLifecycle_lifecycle (x : Lifecycle) : (s.setLifecycle x).lifecycle = x := rfl
@[simp] theorem setLifecycle_time (x : Lifecycle) : (s.setLifecycle x).time = s.time := rfl
@[simp] theorem setLifecycle_lineRate (x : Lifecycle) : (s.setLifecycle x).lineRate = s.lineRate := rfl
@[simp] theorem setLifecycle_counter (x : Lifecycle) : (s.setLifecycle x).counter = s.counter := rfl
@[simp] theorem setLifecycle_monitor (x : Lifecycle) : (s.setLifecycle x).monitor = s.monitor := rfl
@[simp] theorem setLifecycle_active (x : Lifecycle) : (s.setLifecycle x).active = s.active := rfl
@[simp] theorem setLifecycle_session (x : Lifecycle) : (s.setLifecycle x).session = s.session := rfl
@[simp] theorem setLifecycle_tracks (x : Lifecycle) : (s.setLifecycle x).tracks = s.tracks := rfl
@[simp] theorem setLifecycle_oe (x : Lifecycle) : (s.setLifecycle x).oe = s.oe := rfl
@[simp] theorem setLifecycle_store (x : Lifecycle) : (s.setLifecycle x).store = s.store := rfl
@[simp] theorem setLifecycle_mail (x : Lifecycle) : (s.setLifecycle x).mail = s.mail := rfl
@[simp] theorem setLifecycle_ports (x : Lifecycle) : (s.setLifecycle x).ports = s.ports := rfl
@[simp] theorem setLifecycle_choices (x : Lifecycle) : (s.setLifecycle x).choices = s.choices := rfl
@[simp] theorem setLifecycle_pending (x : Lifecycle) : (s.setLifecycle x).pending = s.pending := rfl

/-! ### `setTime` -/
@[simp] theorem setTime_lifecycle (x : Word32) : (s.setTime x).lifecycle = s.lifecycle := rfl
@[simp] theorem setTime_time (x : Word32) : (s.setTime x).time = x := rfl
@[simp] theorem setTime_lineRate (x : Word32) : (s.setTime x).lineRate = s.lineRate := rfl
@[simp] theorem setTime_counter (x : Word32) : (s.setTime x).counter = s.counter := rfl
@[simp] theorem setTime_monitor (x : Word32) : (s.setTime x).monitor = s.monitor := rfl
@[simp] theorem setTime_active (x : Word32) : (s.setTime x).active = s.active := rfl
@[simp] theorem setTime_session (x : Word32) : (s.setTime x).session = s.session := rfl
@[simp] theorem setTime_tracks (x : Word32) : (s.setTime x).tracks = s.tracks := rfl
@[simp] theorem setTime_oe (x : Word32) : (s.setTime x).oe = s.oe := rfl
@[simp] theorem setTime_store (x : Word32) : (s.setTime x).store = s.store := rfl
@[simp] theorem setTime_mail (x : Word32) : (s.setTime x).mail = s.mail := rfl
@[simp] theorem setTime_ports (x : Word32) : (s.setTime x).ports = s.ports := rfl
@[simp] theorem setTime_choices (x : Word32) : (s.setTime x).choices = s.choices := rfl
@[simp] theorem setTime_pending (x : Word32) : (s.setTime x).pending = s.pending := rfl

/-! ### `setLineRate` -/
@[simp] theorem setLineRate_lifecycle (x : BitVec 2) : (s.setLineRate x).lifecycle = s.lifecycle := rfl
@[simp] theorem setLineRate_time (x : BitVec 2) : (s.setLineRate x).time = s.time := rfl
@[simp] theorem setLineRate_lineRate (x : BitVec 2) : (s.setLineRate x).lineRate = x := rfl
@[simp] theorem setLineRate_counter (x : BitVec 2) : (s.setLineRate x).counter = s.counter := rfl
@[simp] theorem setLineRate_monitor (x : BitVec 2) : (s.setLineRate x).monitor = s.monitor := rfl
@[simp] theorem setLineRate_active (x : BitVec 2) : (s.setLineRate x).active = s.active := rfl
@[simp] theorem setLineRate_session (x : BitVec 2) : (s.setLineRate x).session = s.session := rfl
@[simp] theorem setLineRate_tracks (x : BitVec 2) : (s.setLineRate x).tracks = s.tracks := rfl
@[simp] theorem setLineRate_oe (x : BitVec 2) : (s.setLineRate x).oe = s.oe := rfl
@[simp] theorem setLineRate_store (x : BitVec 2) : (s.setLineRate x).store = s.store := rfl
@[simp] theorem setLineRate_mail (x : BitVec 2) : (s.setLineRate x).mail = s.mail := rfl
@[simp] theorem setLineRate_ports (x : BitVec 2) : (s.setLineRate x).ports = s.ports := rfl
@[simp] theorem setLineRate_choices (x : BitVec 2) : (s.setLineRate x).choices = s.choices := rfl
@[simp] theorem setLineRate_pending (x : BitVec 2) : (s.setLineRate x).pending = s.pending := rfl

/-! ### `setCounter` -/
@[simp] theorem setCounter_lifecycle (x : Counter) : (s.setCounter x).lifecycle = s.lifecycle := rfl
@[simp] theorem setCounter_time (x : Counter) : (s.setCounter x).time = s.time := rfl
@[simp] theorem setCounter_lineRate (x : Counter) : (s.setCounter x).lineRate = s.lineRate := rfl
@[simp] theorem setCounter_counter (x : Counter) : (s.setCounter x).counter = x := rfl
@[simp] theorem setCounter_monitor (x : Counter) : (s.setCounter x).monitor = s.monitor := rfl
@[simp] theorem setCounter_active (x : Counter) : (s.setCounter x).active = s.active := rfl
@[simp] theorem setCounter_session (x : Counter) : (s.setCounter x).session = s.session := rfl
@[simp] theorem setCounter_tracks (x : Counter) : (s.setCounter x).tracks = s.tracks := rfl
@[simp] theorem setCounter_oe (x : Counter) : (s.setCounter x).oe = s.oe := rfl
@[simp] theorem setCounter_store (x : Counter) : (s.setCounter x).store = s.store := rfl
@[simp] theorem setCounter_mail (x : Counter) : (s.setCounter x).mail = s.mail := rfl
@[simp] theorem setCounter_ports (x : Counter) : (s.setCounter x).ports = s.ports := rfl
@[simp] theorem setCounter_choices (x : Counter) : (s.setCounter x).choices = s.choices := rfl
@[simp] theorem setCounter_pending (x : Counter) : (s.setCounter x).pending = s.pending := rfl

/-! ### `setMonitor` -/
@[simp] theorem setMonitor_lifecycle (x : Monitor) : (s.setMonitor x).lifecycle = s.lifecycle := rfl
@[simp] theorem setMonitor_time (x : Monitor) : (s.setMonitor x).time = s.time := rfl
@[simp] theorem setMonitor_lineRate (x : Monitor) : (s.setMonitor x).lineRate = s.lineRate := rfl
@[simp] theorem setMonitor_counter (x : Monitor) : (s.setMonitor x).counter = s.counter := rfl
@[simp] theorem setMonitor_monitor (x : Monitor) : (s.setMonitor x).monitor = x := rfl
@[simp] theorem setMonitor_active (x : Monitor) : (s.setMonitor x).active = s.active := rfl
@[simp] theorem setMonitor_session (x : Monitor) : (s.setMonitor x).session = s.session := rfl
@[simp] theorem setMonitor_tracks (x : Monitor) : (s.setMonitor x).tracks = s.tracks := rfl
@[simp] theorem setMonitor_oe (x : Monitor) : (s.setMonitor x).oe = s.oe := rfl
@[simp] theorem setMonitor_store (x : Monitor) : (s.setMonitor x).store = s.store := rfl
@[simp] theorem setMonitor_mail (x : Monitor) : (s.setMonitor x).mail = s.mail := rfl
@[simp] theorem setMonitor_ports (x : Monitor) : (s.setMonitor x).ports = s.ports := rfl
@[simp] theorem setMonitor_choices (x : Monitor) : (s.setMonitor x).choices = s.choices := rfl
@[simp] theorem setMonitor_pending (x : Monitor) : (s.setMonitor x).pending = s.pending := rfl

/-! ### `setActive` -/
@[simp] theorem setActive_lifecycle (x : Bank) : (s.setActive x).lifecycle = s.lifecycle := rfl
@[simp] theorem setActive_time (x : Bank) : (s.setActive x).time = s.time := rfl
@[simp] theorem setActive_lineRate (x : Bank) : (s.setActive x).lineRate = s.lineRate := rfl
@[simp] theorem setActive_counter (x : Bank) : (s.setActive x).counter = s.counter := rfl
@[simp] theorem setActive_monitor (x : Bank) : (s.setActive x).monitor = s.monitor := rfl
@[simp] theorem setActive_active (x : Bank) : (s.setActive x).active = x := rfl
@[simp] theorem setActive_session (x : Bank) : (s.setActive x).session = s.session := rfl
@[simp] theorem setActive_tracks (x : Bank) : (s.setActive x).tracks = s.tracks := rfl
@[simp] theorem setActive_oe (x : Bank) : (s.setActive x).oe = s.oe := rfl
@[simp] theorem setActive_store (x : Bank) : (s.setActive x).store = s.store := rfl
@[simp] theorem setActive_mail (x : Bank) : (s.setActive x).mail = s.mail := rfl
@[simp] theorem setActive_ports (x : Bank) : (s.setActive x).ports = s.ports := rfl
@[simp] theorem setActive_choices (x : Bank) : (s.setActive x).choices = s.choices := rfl
@[simp] theorem setActive_pending (x : Bank) : (s.setActive x).pending = s.pending := rfl

/-! ### `setSession` -/
@[simp] theorem setSession_lifecycle (x : Option EditSession) : (s.setSession x).lifecycle = s.lifecycle := rfl
@[simp] theorem setSession_time (x : Option EditSession) : (s.setSession x).time = s.time := rfl
@[simp] theorem setSession_lineRate (x : Option EditSession) : (s.setSession x).lineRate = s.lineRate := rfl
@[simp] theorem setSession_counter (x : Option EditSession) : (s.setSession x).counter = s.counter := rfl
@[simp] theorem setSession_monitor (x : Option EditSession) : (s.setSession x).monitor = s.monitor := rfl
@[simp] theorem setSession_active (x : Option EditSession) : (s.setSession x).active = s.active := rfl
@[simp] theorem setSession_session (x : Option EditSession) : (s.setSession x).session = x := rfl
@[simp] theorem setSession_tracks (x : Option EditSession) : (s.setSession x).tracks = s.tracks := rfl
@[simp] theorem setSession_oe (x : Option EditSession) : (s.setSession x).oe = s.oe := rfl
@[simp] theorem setSession_store (x : Option EditSession) : (s.setSession x).store = s.store := rfl
@[simp] theorem setSession_mail (x : Option EditSession) : (s.setSession x).mail = s.mail := rfl
@[simp] theorem setSession_ports (x : Option EditSession) : (s.setSession x).ports = s.ports := rfl
@[simp] theorem setSession_choices (x : Option EditSession) : (s.setSession x).choices = s.choices := rfl
@[simp] theorem setSession_pending (x : Option EditSession) : (s.setSession x).pending = s.pending := rfl

/-! ### `setTracks` -/
@[simp] theorem setTracks_lifecycle (x : Table 16 Track) : (s.setTracks x).lifecycle = s.lifecycle := rfl
@[simp] theorem setTracks_time (x : Table 16 Track) : (s.setTracks x).time = s.time := rfl
@[simp] theorem setTracks_lineRate (x : Table 16 Track) : (s.setTracks x).lineRate = s.lineRate := rfl
@[simp] theorem setTracks_counter (x : Table 16 Track) : (s.setTracks x).counter = s.counter := rfl
@[simp] theorem setTracks_monitor (x : Table 16 Track) : (s.setTracks x).monitor = s.monitor := rfl
@[simp] theorem setTracks_active (x : Table 16 Track) : (s.setTracks x).active = s.active := rfl
@[simp] theorem setTracks_session (x : Table 16 Track) : (s.setTracks x).session = s.session := rfl
@[simp] theorem setTracks_tracks (x : Table 16 Track) : (s.setTracks x).tracks = x := rfl
@[simp] theorem setTracks_oe (x : Table 16 Track) : (s.setTracks x).oe = s.oe := rfl
@[simp] theorem setTracks_store (x : Table 16 Track) : (s.setTracks x).store = s.store := rfl
@[simp] theorem setTracks_mail (x : Table 16 Track) : (s.setTracks x).mail = s.mail := rfl
@[simp] theorem setTracks_ports (x : Table 16 Track) : (s.setTracks x).ports = s.ports := rfl
@[simp] theorem setTracks_choices (x : Table 16 Track) : (s.setTracks x).choices = s.choices := rfl
@[simp] theorem setTracks_pending (x : Table 16 Track) : (s.setTracks x).pending = s.pending := rfl

/-! ### `setOe` -/
@[simp] theorem setOe_lifecycle (x : Bool) : (s.setOe x).lifecycle = s.lifecycle := rfl
@[simp] theorem setOe_time (x : Bool) : (s.setOe x).time = s.time := rfl
@[simp] theorem setOe_lineRate (x : Bool) : (s.setOe x).lineRate = s.lineRate := rfl
@[simp] theorem setOe_counter (x : Bool) : (s.setOe x).counter = s.counter := rfl
@[simp] theorem setOe_monitor (x : Bool) : (s.setOe x).monitor = s.monitor := rfl
@[simp] theorem setOe_active (x : Bool) : (s.setOe x).active = s.active := rfl
@[simp] theorem setOe_session (x : Bool) : (s.setOe x).session = s.session := rfl
@[simp] theorem setOe_tracks (x : Bool) : (s.setOe x).tracks = s.tracks := rfl
@[simp] theorem setOe_oe (x : Bool) : (s.setOe x).oe = x := rfl
@[simp] theorem setOe_store (x : Bool) : (s.setOe x).store = s.store := rfl
@[simp] theorem setOe_mail (x : Bool) : (s.setOe x).mail = s.mail := rfl
@[simp] theorem setOe_ports (x : Bool) : (s.setOe x).ports = s.ports := rfl
@[simp] theorem setOe_choices (x : Bool) : (s.setOe x).choices = s.choices := rfl
@[simp] theorem setOe_pending (x : Bool) : (s.setOe x).pending = s.pending := rfl

/-! ### `setStore` -/
@[simp] theorem setStore_lifecycle (x : Store) : (s.setStore x).lifecycle = s.lifecycle := rfl
@[simp] theorem setStore_time (x : Store) : (s.setStore x).time = s.time := rfl
@[simp] theorem setStore_lineRate (x : Store) : (s.setStore x).lineRate = s.lineRate := rfl
@[simp] theorem setStore_counter (x : Store) : (s.setStore x).counter = s.counter := rfl
@[simp] theorem setStore_monitor (x : Store) : (s.setStore x).monitor = s.monitor := rfl
@[simp] theorem setStore_active (x : Store) : (s.setStore x).active = s.active := rfl
@[simp] theorem setStore_session (x : Store) : (s.setStore x).session = s.session := rfl
@[simp] theorem setStore_tracks (x : Store) : (s.setStore x).tracks = s.tracks := rfl
@[simp] theorem setStore_oe (x : Store) : (s.setStore x).oe = s.oe := rfl
@[simp] theorem setStore_store (x : Store) : (s.setStore x).store = x := rfl
@[simp] theorem setStore_mail (x : Store) : (s.setStore x).mail = s.mail := rfl
@[simp] theorem setStore_ports (x : Store) : (s.setStore x).ports = s.ports := rfl
@[simp] theorem setStore_choices (x : Store) : (s.setStore x).choices = s.choices := rfl
@[simp] theorem setStore_pending (x : Store) : (s.setStore x).pending = s.pending := rfl

/-! ### `setMail` -/
@[simp] theorem setMail_lifecycle (x : Table 4 Mailbox) : (s.setMail x).lifecycle = s.lifecycle := rfl
@[simp] theorem setMail_time (x : Table 4 Mailbox) : (s.setMail x).time = s.time := rfl
@[simp] theorem setMail_lineRate (x : Table 4 Mailbox) : (s.setMail x).lineRate = s.lineRate := rfl
@[simp] theorem setMail_counter (x : Table 4 Mailbox) : (s.setMail x).counter = s.counter := rfl
@[simp] theorem setMail_monitor (x : Table 4 Mailbox) : (s.setMail x).monitor = s.monitor := rfl
@[simp] theorem setMail_active (x : Table 4 Mailbox) : (s.setMail x).active = s.active := rfl
@[simp] theorem setMail_session (x : Table 4 Mailbox) : (s.setMail x).session = s.session := rfl
@[simp] theorem setMail_tracks (x : Table 4 Mailbox) : (s.setMail x).tracks = s.tracks := rfl
@[simp] theorem setMail_oe (x : Table 4 Mailbox) : (s.setMail x).oe = s.oe := rfl
@[simp] theorem setMail_store (x : Table 4 Mailbox) : (s.setMail x).store = s.store := rfl
@[simp] theorem setMail_mail (x : Table 4 Mailbox) : (s.setMail x).mail = x := rfl
@[simp] theorem setMail_ports (x : Table 4 Mailbox) : (s.setMail x).ports = s.ports := rfl
@[simp] theorem setMail_choices (x : Table 4 Mailbox) : (s.setMail x).choices = s.choices := rfl
@[simp] theorem setMail_pending (x : Table 4 Mailbox) : (s.setMail x).pending = s.pending := rfl

/-! ### `setPorts` -/
@[simp] theorem setPorts_lifecycle (x : Table 4 PortRec) : (s.setPorts x).lifecycle = s.lifecycle := rfl
@[simp] theorem setPorts_time (x : Table 4 PortRec) : (s.setPorts x).time = s.time := rfl
@[simp] theorem setPorts_lineRate (x : Table 4 PortRec) : (s.setPorts x).lineRate = s.lineRate := rfl
@[simp] theorem setPorts_counter (x : Table 4 PortRec) : (s.setPorts x).counter = s.counter := rfl
@[simp] theorem setPorts_monitor (x : Table 4 PortRec) : (s.setPorts x).monitor = s.monitor := rfl
@[simp] theorem setPorts_active (x : Table 4 PortRec) : (s.setPorts x).active = s.active := rfl
@[simp] theorem setPorts_session (x : Table 4 PortRec) : (s.setPorts x).session = s.session := rfl
@[simp] theorem setPorts_tracks (x : Table 4 PortRec) : (s.setPorts x).tracks = s.tracks := rfl
@[simp] theorem setPorts_oe (x : Table 4 PortRec) : (s.setPorts x).oe = s.oe := rfl
@[simp] theorem setPorts_store (x : Table 4 PortRec) : (s.setPorts x).store = s.store := rfl
@[simp] theorem setPorts_mail (x : Table 4 PortRec) : (s.setPorts x).mail = s.mail := rfl
@[simp] theorem setPorts_ports (x : Table 4 PortRec) : (s.setPorts x).ports = x := rfl
@[simp] theorem setPorts_choices (x : Table 4 PortRec) : (s.setPorts x).choices = s.choices := rfl
@[simp] theorem setPorts_pending (x : Table 4 PortRec) : (s.setPorts x).pending = s.pending := rfl

/-! ### `setChoices` -/
@[simp] theorem setChoices_lifecycle (x : Nat) : (s.setChoices x).lifecycle = s.lifecycle := rfl
@[simp] theorem setChoices_time (x : Nat) : (s.setChoices x).time = s.time := rfl
@[simp] theorem setChoices_lineRate (x : Nat) : (s.setChoices x).lineRate = s.lineRate := rfl
@[simp] theorem setChoices_counter (x : Nat) : (s.setChoices x).counter = s.counter := rfl
@[simp] theorem setChoices_monitor (x : Nat) : (s.setChoices x).monitor = s.monitor := rfl
@[simp] theorem setChoices_active (x : Nat) : (s.setChoices x).active = s.active := rfl
@[simp] theorem setChoices_session (x : Nat) : (s.setChoices x).session = s.session := rfl
@[simp] theorem setChoices_tracks (x : Nat) : (s.setChoices x).tracks = s.tracks := rfl
@[simp] theorem setChoices_oe (x : Nat) : (s.setChoices x).oe = s.oe := rfl
@[simp] theorem setChoices_store (x : Nat) : (s.setChoices x).store = s.store := rfl
@[simp] theorem setChoices_mail (x : Nat) : (s.setChoices x).mail = s.mail := rfl
@[simp] theorem setChoices_ports (x : Nat) : (s.setChoices x).ports = s.ports := rfl
@[simp] theorem setChoices_choices (x : Nat) : (s.setChoices x).choices = x := rfl
@[simp] theorem setChoices_pending (x : Nat) : (s.setChoices x).pending = s.pending := rfl

@[simp] theorem setLifecycle_setLifecycle (x y : Lifecycle) : (s.setLifecycle x).setLifecycle y = s.setLifecycle y := rfl
@[simp] theorem setTime_setTime (x y : Word32) : (s.setTime x).setTime y = s.setTime y := rfl
@[simp] theorem setLineRate_setLineRate (x y : BitVec 2) : (s.setLineRate x).setLineRate y = s.setLineRate y := rfl
@[simp] theorem setCounter_setCounter (x y : Counter) : (s.setCounter x).setCounter y = s.setCounter y := rfl
@[simp] theorem setMonitor_setMonitor (x y : Monitor) : (s.setMonitor x).setMonitor y = s.setMonitor y := rfl
@[simp] theorem setActive_setActive (x y : Bank) : (s.setActive x).setActive y = s.setActive y := rfl
@[simp] theorem setSession_setSession (x y : Option EditSession) : (s.setSession x).setSession y = s.setSession y := rfl
@[simp] theorem setTracks_setTracks (x y : Table 16 Track) : (s.setTracks x).setTracks y = s.setTracks y := rfl
@[simp] theorem setOe_setOe (x y : Bool) : (s.setOe x).setOe y = s.setOe y := rfl
@[simp] theorem setStore_setStore (x y : Store) : (s.setStore x).setStore y = s.setStore y := rfl
@[simp] theorem setMail_setMail (x y : Table 4 Mailbox) : (s.setMail x).setMail y = s.setMail y := rfl
@[simp] theorem setPorts_setPorts (x y : Table 4 PortRec) : (s.setPorts x).setPorts y = s.setPorts y := rfl
@[simp] theorem setChoices_setChoices (x y : Nat) : (s.setChoices x).setChoices y = s.setChoices y := rfl

/-! ### Accessors through updates of other blocks -/
@[simp] theorem port_setLifecycle (x : Lifecycle) (p : Port) : (s.setLifecycle x).port p = s.port p := rfl
@[simp] theorem port_setTime (x : Word32) (p : Port) : (s.setTime x).port p = s.port p := rfl
@[simp] theorem port_setLineRate (x : BitVec 2) (p : Port) : (s.setLineRate x).port p = s.port p := rfl
@[simp] theorem port_setCounter (x : Counter) (p : Port) : (s.setCounter x).port p = s.port p := rfl
@[simp] theorem port_setMonitor (x : Monitor) (p : Port) : (s.setMonitor x).port p = s.port p := rfl
@[simp] theorem port_setActive (x : Bank) (p : Port) : (s.setActive x).port p = s.port p := rfl
@[simp] theorem port_setSession (x : Option EditSession) (p : Port) : (s.setSession x).port p = s.port p := rfl
@[simp] theorem port_setTracks (x : Table 16 Track) (p : Port) : (s.setTracks x).port p = s.port p := rfl
@[simp] theorem port_setOe (x : Bool) (p : Port) : (s.setOe x).port p = s.port p := rfl
@[simp] theorem port_setStore (x : Store) (p : Port) : (s.setStore x).port p = s.port p := rfl
@[simp] theorem port_setMail (x : Table 4 Mailbox) (p : Port) : (s.setMail x).port p = s.port p := rfl
@[simp] theorem port_setChoices (x : Nat) (p : Port) : (s.setChoices x).port p = s.port p := rfl
@[simp] theorem box_setLifecycle (x : Lifecycle) (p : Port) : (s.setLifecycle x).box p = s.box p := rfl
@[simp] theorem box_setTime (x : Word32) (p : Port) : (s.setTime x).box p = s.box p := rfl
@[simp] theorem box_setLineRate (x : BitVec 2) (p : Port) : (s.setLineRate x).box p = s.box p := rfl
@[simp] theorem box_setCounter (x : Counter) (p : Port) : (s.setCounter x).box p = s.box p := rfl
@[simp] theorem box_setMonitor (x : Monitor) (p : Port) : (s.setMonitor x).box p = s.box p := rfl
@[simp] theorem box_setActive (x : Bank) (p : Port) : (s.setActive x).box p = s.box p := rfl
@[simp] theorem box_setSession (x : Option EditSession) (p : Port) : (s.setSession x).box p = s.box p := rfl
@[simp] theorem box_setTracks (x : Table 16 Track) (p : Port) : (s.setTracks x).box p = s.box p := rfl
@[simp] theorem box_setOe (x : Bool) (p : Port) : (s.setOe x).box p = s.box p := rfl
@[simp] theorem box_setStore (x : Store) (p : Port) : (s.setStore x).box p = s.box p := rfl
@[simp] theorem box_setPorts (x : Table 4 PortRec) (p : Port) : (s.setPorts x).box p = s.box p := rfl
@[simp] theorem box_setChoices (x : Nat) (p : Port) : (s.setChoices x).box p = s.box p := rfl
@[simp] theorem track_setLifecycle (x : Lifecycle) (t : TrackNo) : (s.setLifecycle x).track t = s.track t := rfl
@[simp] theorem track_setTime (x : Word32) (t : TrackNo) : (s.setTime x).track t = s.track t := rfl
@[simp] theorem track_setLineRate (x : BitVec 2) (t : TrackNo) : (s.setLineRate x).track t = s.track t := rfl
@[simp] theorem track_setCounter (x : Counter) (t : TrackNo) : (s.setCounter x).track t = s.track t := rfl
@[simp] theorem track_setMonitor (x : Monitor) (t : TrackNo) : (s.setMonitor x).track t = s.track t := rfl
@[simp] theorem track_setActive (x : Bank) (t : TrackNo) : (s.setActive x).track t = s.track t := rfl
@[simp] theorem track_setSession (x : Option EditSession) (t : TrackNo) : (s.setSession x).track t = s.track t := rfl
@[simp] theorem track_setOe (x : Bool) (t : TrackNo) : (s.setOe x).track t = s.track t := rfl
@[simp] theorem track_setStore (x : Store) (t : TrackNo) : (s.setStore x).track t = s.track t := rfl
@[simp] theorem track_setMail (x : Table 4 Mailbox) (t : TrackNo) : (s.setMail x).track t = s.track t := rfl
@[simp] theorem track_setPorts (x : Table 4 PortRec) (t : TrackNo) : (s.setPorts x).track t = s.track t := rfl
@[simp] theorem track_setChoices (x : Nat) (t : TrackNo) : (s.setChoices x).track t = s.track t := rfl

/-! ### Records of the tables -/

@[simp] theorem port_setPort_same (p : Port) (x : PortRec) : (s.setPort p x).port p = x := by
  simp [State.port, State.setPort]

theorem port_setPort_ne {p q : Port} (x : PortRec) (h : q ≠ p) : (s.setPort p x).port q = s.port q := by
  simp [State.port, State.setPort, Table.look_put_ne _ _ h]

theorem port_setPort (p q : Port) (x : PortRec) : (s.setPort p x).port q = if q = p then x else s.port q := by
  simp [State.port, State.setPort, Table.look_put]

@[simp] theorem setPort_setPort (p : Port) (x y : PortRec) : (s.setPort p x).setPort p y = s.setPort p y := by
  simp [State.setPort]

@[simp] theorem setPort_port (p : Port) : s.setPort p (s.port p) = s := by
  simp [State.setPort, State.port, State.setPorts]

@[simp] theorem box_setBox_same (p : Port) (x : Mailbox) : (s.setBox p x).box p = x := by
  simp [State.box, State.setBox]

theorem box_setBox (p q : Port) (x : Mailbox) : (s.setBox p x).box q = if q = p then x else s.box q := by
  simp [State.box, State.setBox, Table.look_put]

@[simp] theorem track_setTrack_same (t : TrackNo) (x : Track) : (s.setTrack t x).track t = x := by
  simp [State.track, State.setTrack]

theorem track_setTrack (t u : TrackNo) (x : Track) : (s.setTrack t x).track u = if u = t then x else s.track u := by
  simp [State.track, State.setTrack, Table.look_put]

@[simp] theorem track_setTracks_build (f : TrackNo → Track) (t : TrackNo) :
    (s.setTracks (Table.build f)).track t = f t := by
  simp [State.track]

/-! ### `setPort` leaves the other blocks -/
@[simp] theorem setPort_lifecycle (p : Port) (x : PortRec) : (s.setPort p x).lifecycle = s.lifecycle := rfl
@[simp] theorem setPort_time (p : Port) (x : PortRec) : (s.setPort p x).time = s.time := rfl
@[simp] theorem setPort_lineRate (p : Port) (x : PortRec) : (s.setPort p x).lineRate = s.lineRate := rfl
@[simp] theorem setPort_counter (p : Port) (x : PortRec) : (s.setPort p x).counter = s.counter := rfl
@[simp] theorem setPort_monitor (p : Port) (x : PortRec) : (s.setPort p x).monitor = s.monitor := rfl
@[simp] theorem setPort_active (p : Port) (x : PortRec) : (s.setPort p x).active = s.active := rfl
@[simp] theorem setPort_session (p : Port) (x : PortRec) : (s.setPort p x).session = s.session := rfl
@[simp] theorem setPort_tracks (p : Port) (x : PortRec) : (s.setPort p x).tracks = s.tracks := rfl
@[simp] theorem setPort_oe (p : Port) (x : PortRec) : (s.setPort p x).oe = s.oe := rfl
@[simp] theorem setPort_store (p : Port) (x : PortRec) : (s.setPort p x).store = s.store := rfl
@[simp] theorem setPort_mail (p : Port) (x : PortRec) : (s.setPort p x).mail = s.mail := rfl
@[simp] theorem setPort_choices (p : Port) (x : PortRec) : (s.setPort p x).choices = s.choices := rfl
@[simp] theorem setPort_pending (p : Port) (x : PortRec) : (s.setPort p x).pending = s.pending := rfl
@[simp] theorem box_setPort (p : Port) (x : PortRec) (q : Port) : (s.setPort p x).box q = s.box q := rfl
@[simp] theorem track_setPort (p : Port) (x : PortRec) (u : TrackNo) : (s.setPort p x).track u = s.track u := rfl

/-! ### `setBox` leaves the other blocks -/
@[simp] theorem setBox_lifecycle (p : Port) (x : Mailbox) : (s.setBox p x).lifecycle = s.lifecycle := rfl
@[simp] theorem setBox_time (p : Port) (x : Mailbox) : (s.setBox p x).time = s.time := rfl
@[simp] theorem setBox_lineRate (p : Port) (x : Mailbox) : (s.setBox p x).lineRate = s.lineRate := rfl
@[simp] theorem setBox_counter (p : Port) (x : Mailbox) : (s.setBox p x).counter = s.counter := rfl
@[simp] theorem setBox_monitor (p : Port) (x : Mailbox) : (s.setBox p x).monitor = s.monitor := rfl
@[simp] theorem setBox_active (p : Port) (x : Mailbox) : (s.setBox p x).active = s.active := rfl
@[simp] theorem setBox_session (p : Port) (x : Mailbox) : (s.setBox p x).session = s.session := rfl
@[simp] theorem setBox_tracks (p : Port) (x : Mailbox) : (s.setBox p x).tracks = s.tracks := rfl
@[simp] theorem setBox_oe (p : Port) (x : Mailbox) : (s.setBox p x).oe = s.oe := rfl
@[simp] theorem setBox_store (p : Port) (x : Mailbox) : (s.setBox p x).store = s.store := rfl
@[simp] theorem setBox_ports (p : Port) (x : Mailbox) : (s.setBox p x).ports = s.ports := rfl
@[simp] theorem setBox_choices (p : Port) (x : Mailbox) : (s.setBox p x).choices = s.choices := rfl
@[simp] theorem setBox_pending (p : Port) (x : Mailbox) : (s.setBox p x).pending = s.pending := rfl
@[simp] theorem port_setBox (p : Port) (x : Mailbox) (q : Port) : (s.setBox p x).port q = s.port q := rfl
@[simp] theorem track_setBox (p : Port) (x : Mailbox) (u : TrackNo) : (s.setBox p x).track u = s.track u := rfl

/-! ### `setTrack` leaves the other blocks -/
@[simp] theorem setTrack_lifecycle (t : TrackNo) (x : Track) : (s.setTrack t x).lifecycle = s.lifecycle := rfl
@[simp] theorem setTrack_time (t : TrackNo) (x : Track) : (s.setTrack t x).time = s.time := rfl
@[simp] theorem setTrack_lineRate (t : TrackNo) (x : Track) : (s.setTrack t x).lineRate = s.lineRate := rfl
@[simp] theorem setTrack_counter (t : TrackNo) (x : Track) : (s.setTrack t x).counter = s.counter := rfl
@[simp] theorem setTrack_monitor (t : TrackNo) (x : Track) : (s.setTrack t x).monitor = s.monitor := rfl
@[simp] theorem setTrack_active (t : TrackNo) (x : Track) : (s.setTrack t x).active = s.active := rfl
@[simp] theorem setTrack_session (t : TrackNo) (x : Track) : (s.setTrack t x).session = s.session := rfl
@[simp] theorem setTrack_oe (t : TrackNo) (x : Track) : (s.setTrack t x).oe = s.oe := rfl
@[simp] theorem setTrack_store (t : TrackNo) (x : Track) : (s.setTrack t x).store = s.store := rfl
@[simp] theorem setTrack_mail (t : TrackNo) (x : Track) : (s.setTrack t x).mail = s.mail := rfl
@[simp] theorem setTrack_ports (t : TrackNo) (x : Track) : (s.setTrack t x).ports = s.ports := rfl
@[simp] theorem setTrack_choices (t : TrackNo) (x : Track) : (s.setTrack t x).choices = s.choices := rfl
@[simp] theorem setTrack_pending (t : TrackNo) (x : Track) : (s.setTrack t x).pending = s.pending := rfl
@[simp] theorem port_setTrack (t : TrackNo) (x : Track) (q : Port) : (s.setTrack t x).port q = s.port q := rfl
@[simp] theorem box_setTrack (t : TrackNo) (x : Track) (q : Port) : (s.setTrack t x).box q = s.box q := rfl

/-! ### `setSlot` leaves the other blocks -/
@[simp] theorem setSlot_lifecycle (i : SlotNo) (x : Slot) : (s.setSlot i x).lifecycle = s.lifecycle := rfl
@[simp] theorem setSlot_time (i : SlotNo) (x : Slot) : (s.setSlot i x).time = s.time := rfl
@[simp] theorem setSlot_lineRate (i : SlotNo) (x : Slot) : (s.setSlot i x).lineRate = s.lineRate := rfl
@[simp] theorem setSlot_counter (i : SlotNo) (x : Slot) : (s.setSlot i x).counter = s.counter := rfl
@[simp] theorem setSlot_monitor (i : SlotNo) (x : Slot) : (s.setSlot i x).monitor = s.monitor := rfl
@[simp] theorem setSlot_active (i : SlotNo) (x : Slot) : (s.setSlot i x).active = s.active := rfl
@[simp] theorem setSlot_session (i : SlotNo) (x : Slot) : (s.setSlot i x).session = s.session := rfl
@[simp] theorem setSlot_tracks (i : SlotNo) (x : Slot) : (s.setSlot i x).tracks = s.tracks := rfl
@[simp] theorem setSlot_oe (i : SlotNo) (x : Slot) : (s.setSlot i x).oe = s.oe := rfl
@[simp] theorem setSlot_mail (i : SlotNo) (x : Slot) : (s.setSlot i x).mail = s.mail := rfl
@[simp] theorem setSlot_ports (i : SlotNo) (x : Slot) : (s.setSlot i x).ports = s.ports := rfl
@[simp] theorem setSlot_choices (i : SlotNo) (x : Slot) : (s.setSlot i x).choices = s.choices := rfl
@[simp] theorem setSlot_pending (i : SlotNo) (x : Slot) : (s.setSlot i x).pending = s.pending := rfl
@[simp] theorem port_setSlot (i : SlotNo) (x : Slot) (q : Port) : (s.setSlot i x).port q = s.port q := rfl
@[simp] theorem box_setSlot (i : SlotNo) (x : Slot) (q : Port) : (s.setSlot i x).box q = s.box q := rfl
@[simp] theorem track_setSlot (i : SlotNo) (x : Slot) (u : TrackNo) : (s.setSlot i x).track u = s.track u := rfl

/-! ## The state after reset, record by record -/

@[simp] theorem reset_port (p : Port) : State.reset.port p = PortRec.reset := Table.look_replicate _ _
@[simp] theorem reset_box (p : Port) : State.reset.box p = Mailbox.reset := Table.look_replicate _ _
@[simp] theorem reset_track (t : TrackNo) : State.reset.track t = Track.reset := Table.look_replicate _ _
@[simp] theorem reset_slot (i : SlotNo) : State.reset.slot i = .empty := Table.look_replicate _ _
@[simp] theorem reset_list (t : TrackNo) : State.reset.active.list t = [] := Table.look_replicate _ _

end Sys2Proof.Machine
end

