-- ==== Sys2Proof/Laws/Frames.lean ====
section
/-! SUPPORT. What each shared operation leaves as it was, one lemma per field. -/

namespace Sys2Proof.Machine

/-- A fold leaves what every one of its steps leaves. -/
theorem foldl_keeps {σ β γ : Type} (get : σ → γ) (f : σ → β → σ) (h : ∀ s b, get (f s b) = get s) (l : List β) (s : σ) :
    get (l.foldl f s) = get s := by
  induction l generalizing s with
  | nil => rfl
  | cons b l ih => rw [List.foldl_cons, ih, h]

variable (s : State)

/-! ### `produce` -/
@[simp] theorem produce_lifecycle (ev : Event) : (produce ev s).lifecycle = s.lifecycle := rfl
@[simp] theorem produce_time (ev : Event) : (produce ev s).time = s.time := rfl
@[simp] theorem produce_lineRate (ev : Event) : (produce ev s).lineRate = s.lineRate := rfl
@[simp] theorem produce_counter (ev : Event) : (produce ev s).counter = s.counter := rfl
@[simp] theorem produce_monitor (ev : Event) : (produce ev s).monitor = s.monitor := rfl
@[simp] theorem produce_active (ev : Event) : (produce ev s).active = s.active := rfl
@[simp] theorem produce_session (ev : Event) : (produce ev s).session = s.session := rfl
@[simp] theorem produce_tracks (ev : Event) : (produce ev s).tracks = s.tracks := rfl
@[simp] theorem produce_oe (ev : Event) : (produce ev s).oe = s.oe := rfl
@[simp] theorem produce_store (ev : Event) : (produce ev s).store = s.store := rfl
@[simp] theorem produce_ports (ev : Event) : (produce ev s).ports = s.ports := rfl
@[simp] theorem produce_choices (ev : Event) : (produce ev s).choices = s.choices := rfl
@[simp] theorem produce_pending (ev : Event) : (produce ev s).pending = s.pending := rfl

/-! ### `produceIf` -/
@[simp] theorem produceIf_lifecycle (c : Bool) (ev : Event) : (produceIf c ev s).lifecycle = s.lifecycle :=
    by cases c <;> rfl
@[simp] theorem produceIf_time (c : Bool) (ev : Event) : (produceIf c ev s).time = s.time := by cases c <;> rfl
@[simp] theorem produceIf_lineRate (c : Bool) (ev : Event) : (produceIf c ev s).lineRate = s.lineRate := by cases c <;> rfl
@[simp] theorem produceIf_counter (c : Bool) (ev : Event) : (produceIf c ev s).counter = s.counter := by cases c <;> rfl
@[simp] theorem produceIf_monitor (c : Bool) (ev : Event) : (produceIf c ev s).monitor = s.monitor := by cases c <;> rfl
@[simp] theorem produceIf_active (c : Bool) (ev : Event) : (produceIf c ev s).active = s.active := by cases c <;> rfl
@[simp] theorem produceIf_session (c : Bool) (ev : Event) : (produceIf c ev s).session = s.session := by cases c <;> rfl
@[simp] theorem produceIf_tracks (c : Bool) (ev : Event) : (produceIf c ev s).tracks = s.tracks := by cases c <;> rfl
@[simp] theorem produceIf_oe (c : Bool) (ev : Event) : (produceIf c ev s).oe = s.oe := by cases c <;> rfl
@[simp] theorem produceIf_store (c : Bool) (ev : Event) : (produceIf c ev s).store = s.store := by cases c <;> rfl
@[simp] theorem produceIf_ports (c : Bool) (ev : Event) : (produceIf c ev s).ports = s.ports := by cases c <;> rfl
@[simp] theorem produceIf_choices (c : Bool) (ev : Event) : (produceIf c ev s).choices = s.choices := by cases c <;> rfl
@[simp] theorem produceIf_pending (c : Bool) (ev : Event) : (produceIf c ev s).pending = s.pending := by cases c <;> rfl
@[simp] theorem evalTrack_lifecycle (c : EdgeCause) (i : TrackNo) : (evalTrack c s i).lifecycle = s.lifecycle :=
    by unfold evalTrack; split <;> rfl
@[simp] theorem evalTrack_time (c : EdgeCause) (i : TrackNo) : (evalTrack c s i).time = s.time :=
    by unfold evalTrack; split <;> rfl
@[simp] theorem evalTrack_lineRate (c : EdgeCause) (i : TrackNo) : (evalTrack c s i).lineRate = s.lineRate :=
    by unfold evalTrack; split <;> rfl
@[simp] theorem evalTrack_counter (c : EdgeCause) (i : TrackNo) : (evalTrack c s i).counter = s.counter :=
    by unfold evalTrack; split <;> rfl
@[simp] theorem evalTrack_monitor (c : EdgeCause) (i : TrackNo) : (evalTrack c s i).monitor = s.monitor :=
    by unfold evalTrack; split <;> rfl
@[simp] theorem evalTrack_active (c : EdgeCause) (i : TrackNo) : (evalTrack c s i).active = s.active :=
    by unfold evalTrack; split <;> rfl
@[simp] theorem evalTrack_session (c : EdgeCause) (i : TrackNo) : (evalTrack c s i).session = s.session :=
    by unfold evalTrack; split <;> rfl
@[simp] theorem evalTrack_oe (c : EdgeCause) (i : TrackNo) : (evalTrack c s i).oe = s.oe :=
    by unfold evalTrack; split <;> rfl
@[simp] theorem evalTrack_store (c : EdgeCause) (i : TrackNo) : (evalTrack c s i).store = s.store :=
    by unfold evalTrack; split <;> rfl
@[simp] theorem evalTrack_ports (c : EdgeCause) (i : TrackNo) : (evalTrack c s i).ports = s.ports :=
    by unfold evalTrack; split <;> rfl
@[simp] theorem evalTrack_choices (c : EdgeCause) (i : TrackNo) : (evalTrack c s i).choices = s.choices :=
    by unfold evalTrack; split <;> rfl
@[simp] theorem evalTrack_pending (c : EdgeCause) (i : TrackNo) : (evalTrack c s i).pending = s.pending :=
    by unfold evalTrack; split <;> rfl

/-! ### `reevaluate` -/
@[simp] theorem reevaluate_lifecycle (c : EdgeCause) (ts : List TrackNo) : (reevaluate c ts s).lifecycle = s.lifecycle :=
    by unfold reevaluate; exact foldl_keeps State.lifecycle (evalTrack c) (fun s i => evalTrack_lifecycle s c i) ts s
@[simp] theorem reevaluate_time (c : EdgeCause) (ts : List TrackNo) : (reevaluate c ts s).time = s.time :=
    by unfold reevaluate; exact foldl_keeps State.time (evalTrack c) (fun s i => evalTrack_time s c i) ts s
@[simp] theorem reevaluate_lineRate (c : EdgeCause) (ts : List TrackNo) : (reevaluate c ts s).lineRate = s.lineRate :=
    by unfold reevaluate; exact foldl_keeps State.lineRate (evalTrack c) (fun s i => evalTrack_lineRate s c i) ts s
@[simp] theorem reevaluate_counter (c : EdgeCause) (ts : List TrackNo) : (reevaluate c ts s).counter = s.counter :=
    by unfold reevaluate; exact foldl_keeps State.counter (evalTrack c) (fun s i => evalTrack_counter s c i) ts s
@[simp] theorem reevaluate_monitor (c : EdgeCause) (ts : List TrackNo) : (reevaluate c ts s).monitor = s.monitor :=
    by unfold reevaluate; exact foldl_keeps State.monitor (evalTrack c) (fun s i => evalTrack_monitor s c i) ts s
@[simp] theorem reevaluate_active (c : EdgeCause) (ts : List TrackNo) : (reevaluate c ts s).active = s.active :=
    by unfold reevaluate; exact foldl_keeps State.active (evalTrack c) (fun s i => evalTrack_active s c i) ts s
@[simp] theorem reevaluate_session (c : EdgeCause) (ts : List TrackNo) : (reevaluate c ts s).session = s.session :=
    by unfold reevaluate; exact foldl_keeps State.session (evalTrack c) (fun s i => evalTrack_session s c i) ts s
@[simp] theorem reevaluate_oe (c : EdgeCause) (ts : List TrackNo) : (reevaluate c ts s).oe = s.oe :=
    by unfold reevaluate; exact foldl_keeps State.oe (evalTrack c) (fun s i => evalTrack_oe s c i) ts s
@[simp] theorem reevaluate_store (c : EdgeCause) (ts : List TrackNo) : (reevaluate c ts s).store = s.store :=
    by unfold reevaluate; exact foldl_keeps State.store (evalTrack c) (fun s i => evalTrack_store s c i) ts s
@[simp] theorem reevaluate_ports (c : EdgeCause) (ts : List TrackNo) : (reevaluate c ts s).ports = s.ports :=
    by unfold reevaluate; exact foldl_keeps State.ports (evalTrack c) (fun s i => evalTrack_ports s c i) ts s
@[simp] theorem reevaluate_choices (c : EdgeCause) (ts : List TrackNo) : (reevaluate c ts s).choices = s.choices :=
    by unfold reevaluate; exact foldl_keeps State.choices (evalTrack c) (fun s i => evalTrack_choices s c i) ts s
@[simp] theorem reevaluate_pending (c : EdgeCause) (ts : List TrackNo) : (reevaluate c ts s).pending = s.pending :=
    by unfold reevaluate; exact foldl_keeps State.pending (evalTrack c) (fun s i => evalTrack_pending s c i) ts s

/-! ### `reevaluateAll` -/
@[simp] theorem reevaluateAll_lifecycle (c : EdgeCause) : (reevaluateAll c s).lifecycle = s.lifecycle :=
    by simp [reevaluateAll]
@[simp] theorem reevaluateAll_time (c : EdgeCause) : (reevaluateAll c s).time = s.time := by simp [reevaluateAll]
@[simp] theorem reevaluateAll_lineRate (c : EdgeCause) : (reevaluateAll c s).lineRate = s.lineRate := by simp [reevaluateAll]
@[simp] theorem reevaluateAll_counter (c : EdgeCause) : (reevaluateAll c s).counter = s.counter := by simp [reevaluateAll]
@[simp] theorem reevaluateAll_monitor (c : EdgeCause) : (reevaluateAll c s).monitor = s.monitor := by simp [reevaluateAll]
@[simp] theorem reevaluateAll_active (c : EdgeCause) : (reevaluateAll c s).active = s.active := by simp [reevaluateAll]
@[simp] theorem reevaluateAll_session (c : EdgeCause) : (reevaluateAll c s).session = s.session := by simp [reevaluateAll]
@[simp] theorem reevaluateAll_oe (c : EdgeCause) : (reevaluateAll c s).oe = s.oe := by simp [reevaluateAll]
@[simp] theorem reevaluateAll_store (c : EdgeCause) : (reevaluateAll c s).store = s.store := by simp [reevaluateAll]
@[simp] theorem reevaluateAll_ports (c : EdgeCause) : (reevaluateAll c s).ports = s.ports := by simp [reevaluateAll]
@[simp] theorem reevaluateAll_choices (c : EdgeCause) : (reevaluateAll c s).choices = s.choices := by simp [reevaluateAll]
@[simp] theorem reevaluateAll_pending (c : EdgeCause) : (reevaluateAll c s).pending = s.pending := by simp [reevaluateAll]

/-! ### `recomputeShifts` -/
@[simp] theorem recomputeShifts_lifecycle : (recomputeShifts s).lifecycle = s.lifecycle := rfl
@[simp] theorem recomputeShifts_time : (recomputeShifts s).time = s.time := rfl
@[simp] theorem recomputeShifts_lineRate : (recomputeShifts s).lineRate = s.lineRate := rfl
@[simp] theorem recomputeShifts_counter : (recomputeShifts s).counter = s.counter := rfl
@[simp] theorem recomputeShifts_monitor : (recomputeShifts s).monitor = s.monitor := rfl
@[simp] theorem recomputeShifts_active : (recomputeShifts s).active = s.active := rfl
@[simp] theorem recomputeShifts_session : (recomputeShifts s).session = s.session := rfl
@[simp] theorem recomputeShifts_oe : (recomputeShifts s).oe = s.oe := rfl
@[simp] theorem recomputeShifts_store : (recomputeShifts s).store = s.store := rfl
@[simp] theorem recomputeShifts_mail : (recomputeShifts s).mail = s.mail := rfl
@[simp] theorem recomputeShifts_ports : (recomputeShifts s).ports = s.ports := rfl
@[simp] theorem recomputeShifts_choices : (recomputeShifts s).choices = s.choices := rfl
@[simp] theorem recomputeShifts_pending : (recomputeShifts s).pending = s.pending := rfl

/-! ### `motionAtPeriodEnd` -/
@[simp] theorem motionAtPeriodEnd_lifecycle : (motionAtPeriodEnd s).lifecycle = s.lifecycle := by simp [motionAtPeriodEnd]
@[simp] theorem motionAtPeriodEnd_time : (motionAtPeriodEnd s).time = s.time := by simp [motionAtPeriodEnd]
@[simp] theorem motionAtPeriodEnd_lineRate : (motionAtPeriodEnd s).lineRate = s.lineRate := by simp [motionAtPeriodEnd]
@[simp] theorem motionAtPeriodEnd_counter : (motionAtPeriodEnd s).counter = s.counter := by simp [motionAtPeriodEnd]
@[simp] theorem motionAtPeriodEnd_monitor : (motionAtPeriodEnd s).monitor = s.monitor := by simp [motionAtPeriodEnd]
@[simp] theorem motionAtPeriodEnd_active : (motionAtPeriodEnd s).active = s.active := by simp [motionAtPeriodEnd]
@[simp] theorem motionAtPeriodEnd_session : (motionAtPeriodEnd s).session = s.session := by simp [motionAtPeriodEnd]
@[simp] theorem motionAtPeriodEnd_oe : (motionAtPeriodEnd s).oe = s.oe := by simp [motionAtPeriodEnd]
@[simp] theorem motionAtPeriodEnd_store : (motionAtPeriodEnd s).store = s.store := by simp [motionAtPeriodEnd]
@[simp] theorem motionAtPeriodEnd_ports : (motionAtPeriodEnd s).ports = s.ports := by simp [motionAtPeriodEnd]
@[simp] theorem motionAtPeriodEnd_choices : (motionAtPeriodEnd s).choices = s.choices := by simp [motionAtPeriodEnd]
@[simp] theorem motionAtPeriodEnd_pending : (motionAtPeriodEnd s).pending = s.pending := by simp [motionAtPeriodEnd]

/-! ### `freeTracks` -/
@[simp] theorem freeTracks_lifecycle (f : TrackNo → Bool) (p : Port) (b : Byte) : (freeTracks f p b s).lifecycle = s.lifecycle :=
    by simp [freeTracks]
@[simp] theorem freeTracks_time (f : TrackNo → Bool) (p : Port) (b : Byte) : (freeTracks f p b s).time = s.time :=
    by simp [freeTracks]
@[simp] theorem freeTracks_lineRate (f : TrackNo → Bool) (p : Port) (b : Byte) : (freeTracks f p b s).lineRate = s.lineRate :=
    by simp [freeTracks]
@[simp] theorem freeTracks_counter (f : TrackNo → Bool) (p : Port) (b : Byte) : (freeTracks f p b s).counter = s.counter :=
    by simp [freeTracks]
@[simp] theorem freeTracks_monitor (f : TrackNo → Bool) (p : Port) (b : Byte) : (freeTracks f p b s).monitor = s.monitor :=
    by simp [freeTracks]
@[simp] theorem freeTracks_active (f : TrackNo → Bool) (p : Port) (b : Byte) : (freeTracks f p b s).active = s.active :=
    by simp [freeTracks]
@[simp] theorem freeTracks_session (f : TrackNo → Bool) (p : Port) (b : Byte) : (freeTracks f p b s).session = s.session :=
    by simp [freeTracks]
@[simp] theorem freeTracks_oe (f : TrackNo → Bool) (p : Port) (b : Byte) : (freeTracks f p b s).oe = s.oe :=
    by simp [freeTracks]
@[simp] theorem freeTracks_store (f : TrackNo → Bool) (p : Port) (b : Byte) : (freeTracks f p b s).store = s.store :=
    by simp [freeTracks]
@[simp] theorem freeTracks_ports (f : TrackNo → Bool) (p : Port) (b : Byte) : (freeTracks f p b s).ports = s.ports :=
    by simp [freeTracks]
@[simp] theorem freeTracks_choices (f : TrackNo → Bool) (p : Port) (b : Byte) : (freeTracks f p b s).choices = s.choices :=
    by simp [freeTracks]
@[simp] theorem freeTracks_pending (f : TrackNo → Bool) (p : Port) (b : Byte) : (freeTracks f p b s).pending = s.pending :=
    by simp [freeTracks]

/-! ### `drivePins` -/
@[simp] theorem drivePins_lifecycle : (drivePins s).lifecycle = s.lifecycle := rfl
@[simp] theorem drivePins_time : (drivePins s).time = s.time := rfl
@[simp] theorem drivePins_lineRate : (drivePins s).lineRate = s.lineRate := rfl
@[simp] theorem drivePins_counter : (drivePins s).counter = s.counter := rfl
@[simp] theorem drivePins_monitor : (drivePins s).monitor = s.monitor := rfl
@[simp] theorem drivePins_active : (drivePins s).active = s.active := rfl
@[simp] theorem drivePins_session : (drivePins s).session = s.session := rfl
@[simp] theorem drivePins_oe : (drivePins s).oe = s.oe := rfl
@[simp] theorem drivePins_store : (drivePins s).store = s.store := rfl
@[simp] theorem drivePins_mail : (drivePins s).mail = s.mail := rfl
@[simp] theorem drivePins_ports : (drivePins s).ports = s.ports := rfl
@[simp] theorem drivePins_choices : (drivePins s).choices = s.choices := rfl
@[simp] theorem drivePins_pending : (drivePins s).pending = s.pending := rfl

/-! ### `settleLevels` -/
@[simp] theorem settleLevels_lifecycle : (settleLevels s).lifecycle = s.lifecycle := by simp [settleLevels]
@[simp] theorem settleLevels_time : (settleLevels s).time = s.time := by simp [settleLevels]
@[simp] theorem settleLevels_lineRate : (settleLevels s).lineRate = s.lineRate := by simp [settleLevels]
@[simp] theorem settleLevels_counter : (settleLevels s).counter = s.counter := by simp [settleLevels]
@[simp] theorem settleLevels_monitor : (settleLevels s).monitor = s.monitor := by simp [settleLevels]
@[simp] theorem settleLevels_active : (settleLevels s).active = s.active := by simp [settleLevels]
@[simp] theorem settleLevels_session : (settleLevels s).session = s.session := by simp [settleLevels]
@[simp] theorem settleLevels_oe : (settleLevels s).oe = s.oe := by simp [settleLevels]
@[simp] theorem settleLevels_store : (settleLevels s).store = s.store := by simp [settleLevels]
@[simp] theorem settleLevels_mail : (settleLevels s).mail = s.mail := by simp [settleLevels]
@[simp] theorem settleLevels_ports : (settleLevels s).ports = s.ports := by simp [settleLevels]
@[simp] theorem settleLevels_choices : (settleLevels s).choices = s.choices := by simp [settleLevels]
@[simp] theorem settleLevels_pending : (settleLevels s).pending = s.pending := by simp [settleLevels]

/-! ### `swapWith` -/
@[simp] theorem swapWith_lifecycle (e : EditSession) (tag : Word16) : (swapWith e tag s).lifecycle = s.lifecycle :=
    by simp [swapWith]
@[simp] theorem swapWith_time (e : EditSession) (tag : Word16) : (swapWith e tag s).time = s.time := by simp [swapWith]
@[simp] theorem swapWith_lineRate (e : EditSession) (tag : Word16) : (swapWith e tag s).lineRate = s.lineRate :=
    by simp [swapWith]
@[simp] theorem swapWith_counter (e : EditSession) (tag : Word16) : (swapWith e tag s).counter = s.counter :=
    by simp [swapWith]
@[simp] theorem swapWith_monitor (e : EditSession) (tag : Word16) : (swapWith e tag s).monitor = s.monitor :=
    by simp [swapWith]
@[simp] theorem swapWith_oe (e : EditSession) (tag : Word16) : (swapWith e tag s).oe = s.oe := by simp [swapWith]
@[simp] theorem swapWith_store (e : EditSession) (tag : Word16) : (swapWith e tag s).store = s.store := by simp [swapWith]
@[simp] theorem swapWith_ports (e : EditSession) (tag : Word16) : (swapWith e tag s).ports = s.ports := by simp [swapWith]
@[simp] theorem swapWith_choices (e : EditSession) (tag : Word16) : (swapWith e tag s).choices = s.choices :=
    by simp [swapWith]
@[simp] theorem swapWith_pending (e : EditSession) (tag : Word16) : (swapWith e tag s).pending = s.pending :=
    by simp [swapWith]

/-! ### `swapPending` -/
@[simp] theorem swapPending_lifecycle : (swapPending s).lifecycle = s.lifecycle :=
    by unfold swapPending; (repeat' split) <;> simp
@[simp] theorem swapPending_time : (swapPending s).time = s.time := by unfold swapPending; (repeat' split) <;> simp
@[simp] theorem swapPending_lineRate : (swapPending s).lineRate = s.lineRate :=
    by unfold swapPending; (repeat' split) <;> simp
@[simp] theorem swapPending_counter : (swapPending s).counter = s.counter := by unfold swapPending; (repeat' split) <;> simp
@[simp] theorem swapPending_monitor : (swapPending s).monitor = s.monitor := by unfold swapPending; (repeat' split) <;> simp
@[simp] theorem swapPending_oe : (swapPending s).oe = s.oe := by unfold swapPending; (repeat' split) <;> simp
@[simp] theorem swapPending_store : (swapPending s).store = s.store := by unfold swapPending; (repeat' split) <;> simp
@[simp] theorem swapPending_ports : (swapPending s).ports = s.ports := by unfold swapPending; (repeat' split) <;> simp
@[simp] theorem swapPending_choices : (swapPending s).choices = s.choices := by unfold swapPending; (repeat' split) <;> simp
@[simp] theorem swapPending_pending : (swapPending s).pending = s.pending := by unfold swapPending; (repeat' split) <;> simp

/-! ### `editAtIndex` -/
@[simp] theorem editAtIndex_lifecycle : (editAtIndex s).lifecycle = s.lifecycle := by unfold editAtIndex; split <;> simp
@[simp] theorem editAtIndex_time : (editAtIndex s).time = s.time := by unfold editAtIndex; split <;> simp
@[simp] theorem editAtIndex_lineRate : (editAtIndex s).lineRate = s.lineRate := by unfold editAtIndex; split <;> simp
@[simp] theorem editAtIndex_counter : (editAtIndex s).counter = s.counter := by unfold editAtIndex; split <;> simp
@[simp] theorem editAtIndex_monitor : (editAtIndex s).monitor = s.monitor := by unfold editAtIndex; split <;> simp
@[simp] theorem editAtIndex_oe : (editAtIndex s).oe = s.oe := by unfold editAtIndex; split <;> simp
@[simp] theorem editAtIndex_store : (editAtIndex s).store = s.store := by unfold editAtIndex; split <;> simp
@[simp] theorem editAtIndex_ports : (editAtIndex s).ports = s.ports := by unfold editAtIndex; split <;> simp
@[simp] theorem editAtIndex_choices : (editAtIndex s).choices = s.choices := by unfold editAtIndex; split <;> simp
@[simp] theorem editAtIndex_pending : (editAtIndex s).pending = s.pending := by unfold editAtIndex; split <;> simp

/-! ### `editAtPeriodEnd` -/
@[simp] theorem editAtPeriodEnd_lifecycle : (editAtPeriodEnd s).lifecycle = s.lifecycle :=
    by unfold editAtPeriodEnd; split <;> simp
@[simp] theorem editAtPeriodEnd_time : (editAtPeriodEnd s).time = s.time := by unfold editAtPeriodEnd; split <;> simp
@[simp] theorem editAtPeriodEnd_lineRate : (editAtPeriodEnd s).lineRate = s.lineRate :=
    by unfold editAtPeriodEnd; split <;> simp
@[simp] theorem editAtPeriodEnd_counter : (editAtPeriodEnd s).counter = s.counter :=
    by unfold editAtPeriodEnd; split <;> simp
@[simp] theorem editAtPeriodEnd_monitor : (editAtPeriodEnd s).monitor = s.monitor :=
    by unfold editAtPeriodEnd; split <;> simp
@[simp] theorem editAtPeriodEnd_oe : (editAtPeriodEnd s).oe = s.oe := by unfold editAtPeriodEnd; split <;> simp
@[simp] theorem editAtPeriodEnd_store : (editAtPeriodEnd s).store = s.store := by unfold editAtPeriodEnd; split <;> simp
@[simp] theorem editAtPeriodEnd_ports : (editAtPeriodEnd s).ports = s.ports := by unfold editAtPeriodEnd; split <;> simp
@[simp] theorem editAtPeriodEnd_choices : (editAtPeriodEnd s).choices = s.choices :=
    by unfold editAtPeriodEnd; split <;> simp
@[simp] theorem editAtPeriodEnd_pending : (editAtPeriodEnd s).pending = s.pending :=
    by unfold editAtPeriodEnd; split <;> simp

/-! ### `withdrawCommit` -/
@[simp] theorem withdrawCommit_lifecycle (c : Byte) : (withdrawCommit c s).lifecycle = s.lifecycle :=
    by unfold withdrawCommit; (repeat' split) <;> simp
@[simp] theorem withdrawCommit_time (c : Byte) : (withdrawCommit c s).time = s.time :=
    by unfold withdrawCommit; (repeat' split) <;> simp
@[simp] theorem withdrawCommit_lineRate (c : Byte) : (withdrawCommit c s).lineRate = s.lineRate :=
    by unfold withdrawCommit; (repeat' split) <;> simp
@[simp] theorem withdrawCommit_counter (c : Byte) : (withdrawCommit c s).counter = s.counter :=
    by unfold withdrawCommit; (repeat' split) <;> simp
@[simp] theorem withdrawCommit_monitor (c : Byte) : (withdrawCommit c s).monitor = s.monitor :=
    by unfold withdrawCommit; (repeat' split) <;> simp
@[simp] theorem withdrawCommit_active (c : Byte) : (withdrawCommit c s).active = s.active :=
    by unfold withdrawCommit; (repeat' split) <;> simp
@[simp] theorem withdrawCommit_tracks (c : Byte) : (withdrawCommit c s).tracks = s.tracks :=
    by unfold withdrawCommit; (repeat' split) <;> simp
@[simp] theorem withdrawCommit_oe (c : Byte) : (withdrawCommit c s).oe = s.oe :=
    by unfold withdrawCommit; (repeat' split) <;> simp
@[simp] theorem withdrawCommit_store (c : Byte) : (withdrawCommit c s).store = s.store :=
    by unfold withdrawCommit; (repeat' split) <;> simp
@[simp] theorem withdrawCommit_ports (c : Byte) : (withdrawCommit c s).ports = s.ports :=
    by unfold withdrawCommit; (repeat' split) <;> simp
@[simp] theorem withdrawCommit_choices (c : Byte) : (withdrawCommit c s).choices = s.choices :=
    by unfold withdrawCommit; (repeat' split) <;> simp
@[simp] theorem withdrawCommit_pending (c : Byte) : (withdrawCommit c s).pending = s.pending :=
    by unfold withdrawCommit; (repeat' split) <;> simp

/-! ### `endSession` -/
@[simp] theorem endSession_lifecycle : (endSession s).lifecycle = s.lifecycle :=
    by unfold endSession; (repeat' split) <;> simp
@[simp] theorem endSession_time : (endSession s).time = s.time := by unfold endSession; (repeat' split) <;> simp
@[simp] theorem endSession_lineRate : (endSession s).lineRate = s.lineRate := by unfold endSession; (repeat' split) <;> simp
@[simp] theorem endSession_counter : (endSession s).counter = s.counter := by unfold endSession; (repeat' split) <;> simp
@[simp] theorem endSession_monitor : (endSession s).monitor = s.monitor := by unfold endSession; (repeat' split) <;> simp
@[simp] theorem endSession_active : (endSession s).active = s.active := by unfold endSession; (repeat' split) <;> simp
@[simp] theorem endSession_tracks : (endSession s).tracks = s.tracks := by unfold endSession; (repeat' split) <;> simp
@[simp] theorem endSession_oe : (endSession s).oe = s.oe := by unfold endSession; (repeat' split) <;> simp
@[simp] theorem endSession_store : (endSession s).store = s.store := by unfold endSession; (repeat' split) <;> simp
@[simp] theorem endSession_ports : (endSession s).ports = s.ports := by unfold endSession; (repeat' split) <;> simp
@[simp] theorem endSession_choices : (endSession s).choices = s.choices := by unfold endSession; (repeat' split) <;> simp
@[simp] theorem endSession_pending : (endSession s).pending = s.pending := by unfold endSession; (repeat' split) <;> simp

/-! ### `noteFault` -/
@[simp] theorem noteFault_lifecycle (k : FaultKind) (d : Word24) : (noteFault k d s).lifecycle = s.lifecycle :=
    by simp [noteFault]
@[simp] theorem noteFault_time (k : FaultKind) (d : Word24) : (noteFault k d s).time = s.time := by simp [noteFault]
@[simp] theorem noteFault_lineRate (k : FaultKind) (d : Word24) : (noteFault k d s).lineRate = s.lineRate :=
    by simp [noteFault]
@[simp] theorem noteFault_counter (k : FaultKind) (d : Word24) : (noteFault k d s).counter = s.counter := by simp [noteFault]
@[simp] theorem noteFault_active (k : FaultKind) (d : Word24) : (noteFault k d s).active = s.active := by simp [noteFault]
@[simp] theorem noteFault_session (k : FaultKind) (d : Word24) : (noteFault k d s).session = s.session := by simp [noteFault]
@[simp] theorem noteFault_tracks (k : FaultKind) (d : Word24) : (noteFault k d s).tracks = s.tracks := by simp [noteFault]
@[simp] theorem noteFault_oe (k : FaultKind) (d : Word24) : (noteFault k d s).oe = s.oe := by simp [noteFault]
@[simp] theorem noteFault_store (k : FaultKind) (d : Word24) : (noteFault k d s).store = s.store := by simp [noteFault]
@[simp] theorem noteFault_ports (k : FaultKind) (d : Word24) : (noteFault k d s).ports = s.ports := by simp [noteFault]
@[simp] theorem noteFault_choices (k : FaultKind) (d : Word24) : (noteFault k d s).choices = s.choices := by simp [noteFault]
@[simp] theorem noteFault_pending (k : FaultKind) (d : Word24) : (noteFault k d s).pending = s.pending := by simp [noteFault]

/-! ### `lowerReference` -/
@[simp] theorem lowerReference_lifecycle (k : FaultKind) : (lowerReference k s).lifecycle = s.lifecycle :=
    by simp [lowerReference]
@[simp] theorem lowerReference_time (k : FaultKind) : (lowerReference k s).time = s.time := by simp [lowerReference]
@[simp] theorem lowerReference_lineRate (k : FaultKind) : (lowerReference k s).lineRate = s.lineRate :=
    by simp [lowerReference]
@[simp] theorem lowerReference_monitor (k : FaultKind) : (lowerReference k s).monitor = s.monitor := by simp [lowerReference]
@[simp] theorem lowerReference_active (k : FaultKind) : (lowerReference k s).active = s.active := by simp [lowerReference]
@[simp] theorem lowerReference_session (k : FaultKind) : (lowerReference k s).session = s.session := by simp [lowerReference]
@[simp] theorem lowerReference_tracks (k : FaultKind) : (lowerReference k s).tracks = s.tracks := by simp [lowerReference]
@[simp] theorem lowerReference_oe (k : FaultKind) : (lowerReference k s).oe = s.oe := by simp [lowerReference]
@[simp] theorem lowerReference_store (k : FaultKind) : (lowerReference k s).store = s.store := by simp [lowerReference]
@[simp] theorem lowerReference_ports (k : FaultKind) : (lowerReference k s).ports = s.ports := by simp [lowerReference]
@[simp] theorem lowerReference_choices (k : FaultKind) : (lowerReference k s).choices = s.choices := by simp [lowerReference]
@[simp] theorem lowerReference_pending (k : FaultKind) : (lowerReference k s).pending = s.pending := by simp [lowerReference]

/-! ### `raiseLowering` -/
@[simp] theorem raiseLowering_lifecycle (k : FaultKind) (d : Word24) : (raiseLowering k d s).lifecycle = s.lifecycle :=
    by simp only [raiseLowering]; split <;> simp
@[simp] theorem raiseLowering_time (k : FaultKind) (d : Word24) : (raiseLowering k d s).time = s.time :=
    by simp only [raiseLowering]; split <;> simp
@[simp] theorem raiseLowering_lineRate (k : FaultKind) (d : Word24) : (raiseLowering k d s).lineRate = s.lineRate :=
    by simp only [raiseLowering]; split <;> simp
@[simp] theorem raiseLowering_active (k : FaultKind) (d : Word24) : (raiseLowering k d s).active = s.active :=
    by simp only [raiseLowering]; split <;> simp
@[simp] theorem raiseLowering_session (k : FaultKind) (d : Word24) : (raiseLowering k d s).session = s.session :=
    by simp only [raiseLowering]; split <;> simp
@[simp] theorem raiseLowering_oe (k : FaultKind) (d : Word24) : (raiseLowering k d s).oe = s.oe :=
    by simp only [raiseLowering]; split <;> simp
@[simp] theorem raiseLowering_store (k : FaultKind) (d : Word24) : (raiseLowering k d s).store = s.store :=
    by simp only [raiseLowering]; split <;> simp
@[simp] theorem raiseLowering_ports (k : FaultKind) (d : Word24) : (raiseLowering k d s).ports = s.ports :=
    by simp only [raiseLowering]; split <;> simp
@[simp] theorem raiseLowering_choices (k : FaultKind) (d : Word24) : (raiseLowering k d s).choices = s.choices :=
    by simp only [raiseLowering]; split <;> simp
@[simp] theorem raiseLowering_pending (k : FaultKind) (d : Word24) : (raiseLowering k d s).pending = s.pending :=
    by simp only [raiseLowering]; split <;> simp

/-! ### `stepPosition` -/
@[simp] theorem stepPosition_lifecycle (d : Dir) : (stepPosition d s).lifecycle = s.lifecycle := rfl
@[simp] theorem stepPosition_time (d : Dir) : (stepPosition d s).time = s.time := rfl
@[simp] theorem stepPosition_lineRate (d : Dir) : (stepPosition d s).lineRate = s.lineRate := rfl
@[simp] theorem stepPosition_active (d : Dir) : (stepPosition d s).active = s.active := rfl
@[simp] theorem stepPosition_session (d : Dir) : (stepPosition d s).session = s.session := rfl
@[simp] theorem stepPosition_tracks (d : Dir) : (stepPosition d s).tracks = s.tracks := rfl
@[simp] theorem stepPosition_oe (d : Dir) : (stepPosition d s).oe = s.oe := rfl
@[simp] theorem stepPosition_store (d : Dir) : (stepPosition d s).store = s.store := rfl
@[simp] theorem stepPosition_mail (d : Dir) : (stepPosition d s).mail = s.mail := rfl
@[simp] theorem stepPosition_ports (d : Dir) : (stepPosition d s).ports = s.ports := rfl
@[simp] theorem stepPosition_choices (d : Dir) : (stepPosition d s).choices = s.choices := rfl
@[simp] theorem stepPosition_pending (d : Dir) : (stepPosition d s).pending = s.pending := rfl

/-! ### `State.advanceChoices` -/
@[simp] theorem advanceChoices_port (p : Port) : s.advanceChoices.port p = s.port p := rfl
@[simp] theorem advanceChoices_isOpen (p : Port) : s.advanceChoices.isOpen p = s.isOpen p := rfl
@[simp] theorem advanceChoices_lifecycle : s.advanceChoices.lifecycle = s.lifecycle := rfl
@[simp] theorem advanceChoices_time : s.advanceChoices.time = s.time := rfl
@[simp] theorem advanceChoices_lineRate : s.advanceChoices.lineRate = s.lineRate := rfl
@[simp] theorem advanceChoices_counter : s.advanceChoices.counter = s.counter := rfl
@[simp] theorem advanceChoices_monitor : s.advanceChoices.monitor = s.monitor := rfl
@[simp] theorem advanceChoices_active : s.advanceChoices.active = s.active := rfl
@[simp] theorem advanceChoices_session : s.advanceChoices.session = s.session := rfl
@[simp] theorem advanceChoices_tracks : s.advanceChoices.tracks = s.tracks := rfl
@[simp] theorem advanceChoices_oe : s.advanceChoices.oe = s.oe := rfl
@[simp] theorem advanceChoices_store : s.advanceChoices.store = s.store := rfl
@[simp] theorem advanceChoices_mail : s.advanceChoices.mail = s.mail := rfl
@[simp] theorem advanceChoices_ports : s.advanceChoices.ports = s.ports := rfl
@[simp] theorem advanceChoices_pending : s.advanceChoices.pending = s.pending := rfl

/-! ### `takeArrival` -/
@[simp] theorem takeArrival_lifecycle (d : Dir) : (takeArrival d s).lifecycle = s.lifecycle :=
    by simp only [takeArrival]; (repeat' split) <;> simp
@[simp] theorem takeArrival_time (d : Dir) : (takeArrival d s).time = s.time :=
    by simp only [takeArrival]; (repeat' split) <;> simp
@[simp] theorem takeArrival_lineRate (d : Dir) : (takeArrival d s).lineRate = s.lineRate :=
    by simp only [takeArrival]; (repeat' split) <;> simp
@[simp] theorem takeArrival_oe (d : Dir) : (takeArrival d s).oe = s.oe :=
    by simp only [takeArrival]; (repeat' split) <;> simp
@[simp] theorem takeArrival_store (d : Dir) : (takeArrival d s).store = s.store :=
    by simp only [takeArrival]; (repeat' split) <;> simp
@[simp] theorem takeArrival_ports (d : Dir) : (takeArrival d s).ports = s.ports :=
    by simp only [takeArrival]; (repeat' split) <;> simp
@[simp] theorem takeArrival_pending (d : Dir) : (takeArrival d s).pending = s.pending :=
    by simp only [takeArrival]; (repeat' split) <;> simp

/-! ### `placePosition` -/
@[simp] theorem placePosition_lifecycle (m : PresetMode) (v : Nat) (p : Port) (r : Option Nat) : (placePosition m v p r s).lifecycle = s.lifecycle :=
    by simp [placePosition]
@[simp] theorem placePosition_time (m : PresetMode) (v : Nat) (p : Port) (r : Option Nat) : (placePosition m v p r s).time = s.time :=
    by simp [placePosition]
@[simp] theorem placePosition_lineRate (m : PresetMode) (v : Nat) (p : Port) (r : Option Nat) : (placePosition m v p r s).lineRate = s.lineRate :=
    by simp [placePosition]
@[simp] theorem placePosition_monitor (m : PresetMode) (v : Nat) (p : Port) (r : Option Nat) : (placePosition m v p r s).monitor = s.monitor :=
    by simp [placePosition]
@[simp] theorem placePosition_active (m : PresetMode) (v : Nat) (p : Port) (r : Option Nat) : (placePosition m v p r s).active = s.active :=
    by simp [placePosition]
@[simp] theorem placePosition_session (m : PresetMode) (v : Nat) (p : Port) (r : Option Nat) : (placePosition m v p r s).session = s.session :=
    by simp [placePosition]
@[simp] theorem placePosition_oe (m : PresetMode) (v : Nat) (p : Port) (r : Option Nat) : (placePosition m v p r s).oe = s.oe :=
    by simp [placePosition]
@[simp] theorem placePosition_store (m : PresetMode) (v : Nat) (p : Port) (r : Option Nat) : (placePosition m v p r s).store = s.store :=
    by simp [placePosition]
@[simp] theorem placePosition_ports (m : PresetMode) (v : Nat) (p : Port) (r : Option Nat) : (placePosition m v p r s).ports = s.ports :=
    by simp [placePosition]
@[simp] theorem placePosition_choices (m : PresetMode) (v : Nat) (p : Port) (r : Option Nat) : (placePosition m v p r s).choices = s.choices :=
    by simp [placePosition]
@[simp] theorem placePosition_pending (m : PresetMode) (v : Nat) (p : Port) (r : Option Nat) : (placePosition m v p r s).pending = s.pending :=
    by simp [placePosition]

/-! ### `driftEdge` -/
@[simp] theorem driftEdge_lifecycle (d : Nat) : (driftEdge d s).lifecycle = s.lifecycle :=
    by simp only [driftEdge]; (repeat' split) <;> simp
@[simp] theorem driftEdge_time (d : Nat) : (driftEdge d s).time = s.time :=
    by simp only [driftEdge]; (repeat' split) <;> simp
@[simp] theorem driftEdge_lineRate (d : Nat) : (driftEdge d s).lineRate = s.lineRate :=
    by simp only [driftEdge]; (repeat' split) <;> simp
@[simp] theorem driftEdge_oe (d : Nat) : (driftEdge d s).oe = s.oe := by simp only [driftEdge]; (repeat' split) <;> simp
@[simp] theorem driftEdge_store (d : Nat) : (driftEdge d s).store = s.store :=
    by simp only [driftEdge]; (repeat' split) <;> simp
@[simp] theorem driftEdge_ports (d : Nat) : (driftEdge d s).ports = s.ports :=
    by simp only [driftEdge]; (repeat' split) <;> simp
@[simp] theorem driftEdge_pending (d : Nat) : (driftEdge d s).pending = s.pending :=
    by simp only [driftEdge]; (repeat' split) <;> simp

/-! ### `takeIndexEdge` -/
@[simp] theorem takeIndexEdge_lifecycle : (takeIndexEdge s).lifecycle = s.lifecycle :=
    by unfold takeIndexEdge; (repeat' split) <;> simp
@[simp] theorem takeIndexEdge_time : (takeIndexEdge s).time = s.time := by unfold takeIndexEdge; (repeat' split) <;> simp
@[simp] theorem takeIndexEdge_lineRate : (takeIndexEdge s).lineRate = s.lineRate :=
    by unfold takeIndexEdge; (repeat' split) <;> simp
@[simp] theorem takeIndexEdge_oe : (takeIndexEdge s).oe = s.oe := by unfold takeIndexEdge; (repeat' split) <;> simp
@[simp] theorem takeIndexEdge_store : (takeIndexEdge s).store = s.store := by unfold takeIndexEdge; (repeat' split) <;> simp
@[simp] theorem takeIndexEdge_ports : (takeIndexEdge s).ports = s.ports := by unfold takeIndexEdge; (repeat' split) <;> simp
@[simp] theorem takeIndexEdge_pending : (takeIndexEdge s).pending = s.pending :=
    by unfold takeIndexEdge; (repeat' split) <;> simp

/-! ### `sampleCount` -/
@[simp] theorem sampleCount_lifecycle (a b : Bool) : (sampleCount a b s).lifecycle = s.lifecycle :=
    by simp only [sampleCount]; (repeat' split) <;> simp
@[simp] theorem sampleCount_time (a b : Bool) : (sampleCount a b s).time = s.time :=
    by simp only [sampleCount]; (repeat' split) <;> simp
@[simp] theorem sampleCount_lineRate (a b : Bool) : (sampleCount a b s).lineRate = s.lineRate :=
    by simp only [sampleCount]; (repeat' split) <;> simp
@[simp] theorem sampleCount_oe (a b : Bool) : (sampleCount a b s).oe = s.oe :=
    by simp only [sampleCount]; (repeat' split) <;> simp
@[simp] theorem sampleCount_store (a b : Bool) : (sampleCount a b s).store = s.store :=
    by simp only [sampleCount]; (repeat' split) <;> simp
@[simp] theorem sampleCount_ports (a b : Bool) : (sampleCount a b s).ports = s.ports :=
    by simp only [sampleCount]; (repeat' split) <;> simp
@[simp] theorem sampleCount_pending (a b : Bool) : (sampleCount a b s).pending = s.pending :=
    by simp only [sampleCount]; (repeat' split) <;> simp

/-! ### `sampleIndex` -/
@[simp] theorem sampleIndex_lifecycle (x : Bool) : (sampleIndex x s).lifecycle = s.lifecycle :=
    by simp only [sampleIndex]; (repeat' split) <;> simp
@[simp] theorem sampleIndex_time (x : Bool) : (sampleIndex x s).time = s.time :=
    by simp only [sampleIndex]; (repeat' split) <;> simp
@[simp] theorem sampleIndex_lineRate (x : Bool) : (sampleIndex x s).lineRate = s.lineRate :=
    by simp only [sampleIndex]; (repeat' split) <;> simp
@[simp] theorem sampleIndex_oe (x : Bool) : (sampleIndex x s).oe = s.oe :=
    by simp only [sampleIndex]; (repeat' split) <;> simp
@[simp] theorem sampleIndex_store (x : Bool) : (sampleIndex x s).store = s.store :=
    by simp only [sampleIndex]; (repeat' split) <;> simp
@[simp] theorem sampleIndex_ports (x : Bool) : (sampleIndex x s).ports = s.ports :=
    by simp only [sampleIndex]; (repeat' split) <;> simp
@[simp] theorem sampleIndex_pending (x : Bool) : (sampleIndex x s).pending = s.pending :=
    by simp only [sampleIndex]; (repeat' split) <;> simp

/-! ### `sampleCountFirst` -/
@[simp] theorem sampleCountFirst_lifecycle (a b x : Bool) : (sampleCountFirst a b x s).lifecycle = s.lifecycle :=
    by unfold sampleCountFirst; split <;> simp
@[simp] theorem sampleCountFirst_time (a b x : Bool) : (sampleCountFirst a b x s).time = s.time :=
    by unfold sampleCountFirst; split <;> simp
@[simp] theorem sampleCountFirst_lineRate (a b x : Bool) : (sampleCountFirst a b x s).lineRate = s.lineRate :=
    by unfold sampleCountFirst; split <;> simp
@[simp] theorem sampleCountFirst_oe (a b x : Bool) : (sampleCountFirst a b x s).oe = s.oe :=
    by unfold sampleCountFirst; split <;> simp
@[simp] theorem sampleCountFirst_store (a b x : Bool) : (sampleCountFirst a b x s).store = s.store :=
    by unfold sampleCountFirst; split <;> simp
@[simp] theorem sampleCountFirst_ports (a b x : Bool) : (sampleCountFirst a b x s).ports = s.ports :=
    by unfold sampleCountFirst; split <;> simp
@[simp] theorem sampleCountFirst_pending (a b x : Bool) : (sampleCountFirst a b x s).pending = s.pending :=
    by unfold sampleCountFirst; split <;> simp

/-! ### `sampleIndexFirst` -/
@[simp] theorem sampleIndexFirst_lifecycle (a b x : Bool) : (sampleIndexFirst a b x s).lifecycle = s.lifecycle :=
    by unfold sampleIndexFirst; split <;> simp
@[simp] theorem sampleIndexFirst_time (a b x : Bool) : (sampleIndexFirst a b x s).time = s.time :=
    by unfold sampleIndexFirst; split <;> simp
@[simp] theorem sampleIndexFirst_lineRate (a b x : Bool) : (sampleIndexFirst a b x s).lineRate = s.lineRate :=
    by unfold sampleIndexFirst; split <;> simp
@[simp] theorem sampleIndexFirst_oe (a b x : Bool) : (sampleIndexFirst a b x s).oe = s.oe :=
    by unfold sampleIndexFirst; split <;> simp
@[simp] theorem sampleIndexFirst_store (a b x : Bool) : (sampleIndexFirst a b x s).store = s.store :=
    by unfold sampleIndexFirst; split <;> simp
@[simp] theorem sampleIndexFirst_ports (a b x : Bool) : (sampleIndexFirst a b x s).ports = s.ports :=
    by unfold sampleIndexFirst; split <;> simp
@[simp] theorem sampleIndexFirst_pending (a b x : Bool) : (sampleIndexFirst a b x s).pending = s.pending :=
    by unfold sampleIndexFirst; split <;> simp

/-! ### `receiversFail` -/
@[simp] theorem receiversFail_lifecycle (x : LineSet) : (receiversFail x s).lifecycle = s.lifecycle :=
    by simp only [receiversFail]; (repeat' split) <;> simp
@[simp] theorem receiversFail_time (x : LineSet) : (receiversFail x s).time = s.time :=
    by simp only [receiversFail]; (repeat' split) <;> simp
@[simp] theorem receiversFail_lineRate (x : LineSet) : (receiversFail x s).lineRate = s.lineRate :=
    by simp only [receiversFail]; (repeat' split) <;> simp
@[simp] theorem receiversFail_active (x : LineSet) : (receiversFail x s).active = s.active :=
    by simp only [receiversFail]; (repeat' split) <;> simp
@[simp] theorem receiversFail_session (x : LineSet) : (receiversFail x s).session = s.session :=
    by simp only [receiversFail]; (repeat' split) <;> simp
@[simp] theorem receiversFail_oe (x : LineSet) : (receiversFail x s).oe = s.oe :=
    by simp only [receiversFail]; (repeat' split) <;> simp
@[simp] theorem receiversFail_store (x : LineSet) : (receiversFail x s).store = s.store :=
    by simp only [receiversFail]; (repeat' split) <;> simp
@[simp] theorem receiversFail_ports (x : LineSet) : (receiversFail x s).ports = s.ports :=
    by simp only [receiversFail]; (repeat' split) <;> simp
@[simp] theorem receiversFail_choices (x : LineSet) : (receiversFail x s).choices = s.choices :=
    by simp only [receiversFail]; (repeat' split) <;> simp
@[simp] theorem receiversFail_pending (x : LineSet) : (receiversFail x s).pending = s.pending :=
    by simp only [receiversFail]; (repeat' split) <;> simp

/-! ### `receiversHeal` -/
@[simp] theorem receiversHeal_lifecycle (x : LineSet) : (receiversHeal x s).lifecycle = s.lifecycle := rfl
@[simp] theorem receiversHeal_time (x : LineSet) : (receiversHeal x s).time = s.time := rfl
@[simp] theorem receiversHeal_lineRate (x : LineSet) : (receiversHeal x s).lineRate = s.lineRate := rfl
@[simp] theorem receiversHeal_counter (x : LineSet) : (receiversHeal x s).counter = s.counter := rfl
@[simp] theorem receiversHeal_active (x : LineSet) : (receiversHeal x s).active = s.active := rfl
@[simp] theorem receiversHeal_session (x : LineSet) : (receiversHeal x s).session = s.session := rfl
@[simp] theorem receiversHeal_tracks (x : LineSet) : (receiversHeal x s).tracks = s.tracks := rfl
@[simp] theorem receiversHeal_oe (x : LineSet) : (receiversHeal x s).oe = s.oe := rfl
@[simp] theorem receiversHeal_store (x : LineSet) : (receiversHeal x s).store = s.store := rfl
@[simp] theorem receiversHeal_mail (x : LineSet) : (receiversHeal x s).mail = s.mail := rfl
@[simp] theorem receiversHeal_ports (x : LineSet) : (receiversHeal x s).ports = s.ports := rfl
@[simp] theorem receiversHeal_choices (x : LineSet) : (receiversHeal x s).choices = s.choices := rfl
@[simp] theorem receiversHeal_pending (x : LineSet) : (receiversHeal x s).pending = s.pending := rfl

/-! ### `restoreSignal` -/
@[simp] theorem restoreSignal_lifecycle : (restoreSignal s).lifecycle = s.lifecycle := by simp [restoreSignal]
@[simp] theorem restoreSignal_time : (restoreSignal s).time = s.time := by simp [restoreSignal]
@[simp] theorem restoreSignal_lineRate : (restoreSignal s).lineRate = s.lineRate := by simp [restoreSignal]
@[simp] theorem restoreSignal_counter : (restoreSignal s).counter = s.counter := by simp [restoreSignal]
@[simp] theorem restoreSignal_active : (restoreSignal s).active = s.active := by simp [restoreSignal]
@[simp] theorem restoreSignal_session : (restoreSignal s).session = s.session := by simp [restoreSignal]
@[simp] theorem restoreSignal_tracks : (restoreSignal s).tracks = s.tracks := by simp [restoreSignal]
@[simp] theorem restoreSignal_oe : (restoreSignal s).oe = s.oe := by simp [restoreSignal]
@[simp] theorem restoreSignal_store : (restoreSignal s).store = s.store := by simp [restoreSignal]
@[simp] theorem restoreSignal_ports : (restoreSignal s).ports = s.ports := by simp [restoreSignal]
@[simp] theorem restoreSignal_choices : (restoreSignal s).choices = s.choices := by simp [restoreSignal]
@[simp] theorem restoreSignal_pending : (restoreSignal s).pending = s.pending := by simp [restoreSignal]

/-! ### `judgeOverspeed` -/
@[simp] theorem judgeOverspeed_lifecycle : (judgeOverspeed s).lifecycle = s.lifecycle :=
    by simp only [judgeOverspeed]; split <;> simp
@[simp] theorem judgeOverspeed_time : (judgeOverspeed s).time = s.time := by simp only [judgeOverspeed]; split <;> simp
@[simp] theorem judgeOverspeed_lineRate : (judgeOverspeed s).lineRate = s.lineRate :=
    by simp only [judgeOverspeed]; split <;> simp
@[simp] theorem judgeOverspeed_counter : (judgeOverspeed s).counter = s.counter :=
    by simp only [judgeOverspeed]; split <;> simp
@[simp] theorem judgeOverspeed_active : (judgeOverspeed s).active = s.active := by simp only [judgeOverspeed]; split <;> simp
@[simp] theorem judgeOverspeed_session : (judgeOverspeed s).session = s.session :=
    by simp only [judgeOverspeed]; split <;> simp
@[simp] theorem judgeOverspeed_tracks : (judgeOverspeed s).tracks = s.tracks := by simp only [judgeOverspeed]; split <;> simp
@[simp] theorem judgeOverspeed_oe : (judgeOverspeed s).oe = s.oe := by simp only [judgeOverspeed]; split <;> simp
@[simp] theorem judgeOverspeed_store : (judgeOverspeed s).store = s.store := by simp only [judgeOverspeed]; split <;> simp
@[simp] theorem judgeOverspeed_ports : (judgeOverspeed s).ports = s.ports := by simp only [judgeOverspeed]; split <;> simp
@[simp] theorem judgeOverspeed_choices : (judgeOverspeed s).choices = s.choices :=
    by simp only [judgeOverspeed]; split <;> simp
@[simp] theorem judgeOverspeed_pending : (judgeOverspeed s).pending = s.pending :=
    by simp only [judgeOverspeed]; split <;> simp

/-! ### `PeriodReceiver.act` -/
@[simp] theorem act_lifecycle (x : PeriodReceiver) : (PeriodReceiver.act s x).lifecycle = s.lifecycle :=
    by cases x <;> simp [PeriodReceiver.act]
@[simp] theorem act_time (x : PeriodReceiver) : (PeriodReceiver.act s x).time = s.time :=
    by cases x <;> simp [PeriodReceiver.act]
@[simp] theorem act_lineRate (x : PeriodReceiver) : (PeriodReceiver.act s x).lineRate = s.lineRate :=
    by cases x <;> simp [PeriodReceiver.act]
@[simp] theorem act_oe (x : PeriodReceiver) : (PeriodReceiver.act s x).oe = s.oe := by cases x <;> simp [PeriodReceiver.act]
@[simp] theorem act_store (x : PeriodReceiver) : (PeriodReceiver.act s x).store = s.store :=
    by cases x <;> simp [PeriodReceiver.act]
@[simp] theorem act_ports (x : PeriodReceiver) : (PeriodReceiver.act s x).ports = s.ports :=
    by cases x <;> simp [PeriodReceiver.act]
@[simp] theorem act_pending (x : PeriodReceiver) : (PeriodReceiver.act s x).pending = s.pending :=
    by cases x <;> simp [PeriodReceiver.act]
@[simp] theorem act_counter (x : PeriodReceiver) : (PeriodReceiver.act s x).counter = s.counter :=
    by cases x <;> simp [PeriodReceiver.act]
@[simp] theorem act_choices (x : PeriodReceiver) : (PeriodReceiver.act s x).choices = s.choices :=
    by cases x <;> simp [PeriodReceiver.act]

/-! ### `closeSamplePeriod` -/
@[simp] theorem closeSamplePeriod_lifecycle : (closeSamplePeriod s).lifecycle = s.lifecycle :=
    by simp only [closeSamplePeriod]; split <;> simp [foldl_keeps State.lifecycle PeriodReceiver.act (fun s x => act_lifecycle s x)]
@[simp] theorem closeSamplePeriod_time : (closeSamplePeriod s).time = s.time :=
    by simp only [closeSamplePeriod]; split <;> simp [foldl_keeps State.time PeriodReceiver.act (fun s x => act_time s x)]
@[simp] theorem closeSamplePeriod_lineRate : (closeSamplePeriod s).lineRate = s.lineRate :=
    by simp only [closeSamplePeriod]; split <;> simp [foldl_keeps State.lineRate PeriodReceiver.act (fun s x => act_lineRate s x)]
@[simp] theorem closeSamplePeriod_oe : (closeSamplePeriod s).oe = s.oe :=
    by simp only [closeSamplePeriod]; split <;> simp [foldl_keeps State.oe PeriodReceiver.act (fun s x => act_oe s x)]
@[simp] theorem closeSamplePeriod_store : (closeSamplePeriod s).store = s.store :=
    by simp only [closeSamplePeriod]; split <;> simp [foldl_keeps State.store PeriodReceiver.act (fun s x => act_store s x)]
@[simp] theorem closeSamplePeriod_ports : (closeSamplePeriod s).ports = s.ports :=
    by simp only [closeSamplePeriod]; split <;> simp [foldl_keeps State.ports PeriodReceiver.act (fun s x => act_ports s x)]
@[simp] theorem closeSamplePeriod_pending : (closeSamplePeriod s).pending = s.pending :=
    by simp only [closeSamplePeriod]; split <;> simp [foldl_keeps State.pending PeriodReceiver.act (fun s x => act_pending s x)]
@[simp] theorem closeSamplePeriod_counter : (closeSamplePeriod s).counter = s.counter :=
    by simp only [closeSamplePeriod]; split <;> simp [foldl_keeps State.counter PeriodReceiver.act (fun s x => act_counter s x)]

/-! ### `withdrawPreset` -/
@[simp] theorem withdrawPreset_lifecycle (c : Byte) : (withdrawPreset c s).lifecycle = s.lifecycle :=
    by unfold withdrawPreset; split <;> simp
@[simp] theorem withdrawPreset_time (c : Byte) : (withdrawPreset c s).time = s.time :=
    by unfold withdrawPreset; split <;> simp
@[simp] theorem withdrawPreset_lineRate (c : Byte) : (withdrawPreset c s).lineRate = s.lineRate :=
    by unfold withdrawPreset; split <;> simp
@[simp] theorem withdrawPreset_monitor (c : Byte) : (withdrawPreset c s).monitor = s.monitor :=
    by unfold withdrawPreset; split <;> simp
@[simp] theorem withdrawPreset_active (c : Byte) : (withdrawPreset c s).active = s.active :=
    by unfold withdrawPreset; split <;> simp
@[simp] theorem withdrawPreset_session (c : Byte) : (withdrawPreset c s).session = s.session :=
    by unfold withdrawPreset; split <;> simp
@[simp] theorem withdrawPreset_tracks (c : Byte) : (withdrawPreset c s).tracks = s.tracks :=
    by unfold withdrawPreset; split <;> simp
@[simp] theorem withdrawPreset_oe (c : Byte) : (withdrawPreset c s).oe = s.oe := by unfold withdrawPreset; split <;> simp
@[simp] theorem withdrawPreset_store (c : Byte) : (withdrawPreset c s).store = s.store :=
    by unfold withdrawPreset; split <;> simp
@[simp] theorem withdrawPreset_ports (c : Byte) : (withdrawPreset c s).ports = s.ports :=
    by unfold withdrawPreset; split <;> simp
@[simp] theorem withdrawPreset_choices (c : Byte) : (withdrawPreset c s).choices = s.choices :=
    by unfold withdrawPreset; split <;> simp
@[simp] theorem withdrawPreset_pending (c : Byte) : (withdrawPreset c s).pending = s.pending :=
    by unfold withdrawPreset; split <;> simp

/-! ### `freeAxis` -/
@[simp] theorem freeAxis_lifecycle (p : Port) (c : Byte) : (freeAxis p c s).lifecycle = s.lifecycle := by simp [freeAxis]
@[simp] theorem freeAxis_time (p : Port) (c : Byte) : (freeAxis p c s).time = s.time := by simp [freeAxis]
@[simp] theorem freeAxis_lineRate (p : Port) (c : Byte) : (freeAxis p c s).lineRate = s.lineRate := by simp [freeAxis]
@[simp] theorem freeAxis_monitor (p : Port) (c : Byte) : (freeAxis p c s).monitor = s.monitor := by simp [freeAxis]
@[simp] theorem freeAxis_active (p : Port) (c : Byte) : (freeAxis p c s).active = s.active := by simp [freeAxis]
@[simp] theorem freeAxis_session (p : Port) (c : Byte) : (freeAxis p c s).session = s.session := by simp [freeAxis]
@[simp] theorem freeAxis_tracks (p : Port) (c : Byte) : (freeAxis p c s).tracks = s.tracks := by simp [freeAxis]
@[simp] theorem freeAxis_oe (p : Port) (c : Byte) : (freeAxis p c s).oe = s.oe := by simp [freeAxis]
@[simp] theorem freeAxis_store (p : Port) (c : Byte) : (freeAxis p c s).store = s.store := by simp [freeAxis]
@[simp] theorem freeAxis_ports (p : Port) (c : Byte) : (freeAxis p c s).ports = s.ports := by simp [freeAxis]
@[simp] theorem freeAxis_choices (p : Port) (c : Byte) : (freeAxis p c s).choices = s.choices := by simp [freeAxis]
@[simp] theorem freeAxis_pending (p : Port) (c : Byte) : (freeAxis p c s).pending = s.pending := by simp [freeAxis]

/-! ### `setLimits` -/
@[simp] theorem setLimits_lifecycle (x : AxisConfig) : (setLimits x s).lifecycle = s.lifecycle := rfl
@[simp] theorem setLimits_time (x : AxisConfig) : (setLimits x s).time = s.time := rfl
@[simp] theorem setLimits_lineRate (x : AxisConfig) : (setLimits x s).lineRate = s.lineRate := rfl
@[simp] theorem setLimits_counter (x : AxisConfig) : (setLimits x s).counter = s.counter := rfl
@[simp] theorem setLimits_active (x : AxisConfig) : (setLimits x s).active = s.active := rfl
@[simp] theorem setLimits_session (x : AxisConfig) : (setLimits x s).session = s.session := rfl
@[simp] theorem setLimits_tracks (x : AxisConfig) : (setLimits x s).tracks = s.tracks := rfl
@[simp] theorem setLimits_oe (x : AxisConfig) : (setLimits x s).oe = s.oe := rfl
@[simp] theorem setLimits_store (x : AxisConfig) : (setLimits x s).store = s.store := rfl
@[simp] theorem setLimits_mail (x : AxisConfig) : (setLimits x s).mail = s.mail := rfl
@[simp] theorem setLimits_ports (x : AxisConfig) : (setLimits x s).ports = s.ports := rfl
@[simp] theorem setLimits_choices (x : AxisConfig) : (setLimits x s).choices = s.choices := rfl
@[simp] theorem setLimits_pending (x : AxisConfig) : (setLimits x s).pending = s.pending := rfl

/-! ### `placeGeometry` -/
@[simp] theorem placeGeometry_lifecycle (x : AxisConfig) : (placeGeometry x s).lifecycle = s.lifecycle := rfl
@[simp] theorem placeGeometry_time (x : AxisConfig) : (placeGeometry x s).time = s.time := rfl
@[simp] theorem placeGeometry_lineRate (x : AxisConfig) : (placeGeometry x s).lineRate = s.lineRate := rfl
@[simp] theorem placeGeometry_active (x : AxisConfig) : (placeGeometry x s).active = s.active := rfl
@[simp] theorem placeGeometry_session (x : AxisConfig) : (placeGeometry x s).session = s.session := rfl
@[simp] theorem placeGeometry_tracks (x : AxisConfig) : (placeGeometry x s).tracks = s.tracks := rfl
@[simp] theorem placeGeometry_oe (x : AxisConfig) : (placeGeometry x s).oe = s.oe := rfl
@[simp] theorem placeGeometry_store (x : AxisConfig) : (placeGeometry x s).store = s.store := rfl
@[simp] theorem placeGeometry_mail (x : AxisConfig) : (placeGeometry x s).mail = s.mail := rfl
@[simp] theorem placeGeometry_ports (x : AxisConfig) : (placeGeometry x s).ports = s.ports := rfl
@[simp] theorem placeGeometry_choices (x : AxisConfig) : (placeGeometry x s).choices = s.choices := rfl
@[simp] theorem placeGeometry_pending (x : AxisConfig) : (placeGeometry x s).pending = s.pending := rfl

/-! ### `changeGeometry` -/
@[simp] theorem changeGeometry_lifecycle (x : AxisConfig) : (changeGeometry x s).lifecycle = s.lifecycle :=
    by simp [changeGeometry]
@[simp] theorem changeGeometry_time (x : AxisConfig) : (changeGeometry x s).time = s.time := by simp [changeGeometry]
@[simp] theorem changeGeometry_lineRate (x : AxisConfig) : (changeGeometry x s).lineRate = s.lineRate :=
    by simp [changeGeometry]
@[simp] theorem changeGeometry_active (x : AxisConfig) : (changeGeometry x s).active = s.active := by simp [changeGeometry]
@[simp] theorem changeGeometry_session (x : AxisConfig) : (changeGeometry x s).session = s.session :=
    by simp [changeGeometry]
@[simp] theorem changeGeometry_oe (x : AxisConfig) : (changeGeometry x s).oe = s.oe := by simp [changeGeometry]
@[simp] theorem changeGeometry_store (x : AxisConfig) : (changeGeometry x s).store = s.store := by simp [changeGeometry]
@[simp] theorem changeGeometry_ports (x : AxisConfig) : (changeGeometry x s).ports = s.ports := by simp [changeGeometry]
@[simp] theorem changeGeometry_choices (x : AxisConfig) : (changeGeometry x s).choices = s.choices :=
    by simp [changeGeometry]
@[simp] theorem changeGeometry_pending (x : AxisConfig) : (changeGeometry x s).pending = s.pending :=
    by simp [changeGeometry]

/-! ### `startStore`, `endStore` -/
@[simp] theorem startStore_lifecycle (i : SlotNo) (x : Slot) (k : StoreKind) (p : Port) : (startStore s i x k p).lifecycle = s.lifecycle :=
    rfl
@[simp] theorem endStore_lifecycle (i : SlotNo) (x : Slot) : (endStore s i x).lifecycle = s.lifecycle := rfl
@[simp] theorem startStore_time (i : SlotNo) (x : Slot) (k : StoreKind) (p : Port) : (startStore s i x k p).time = s.time :=
    rfl
@[simp] theorem endStore_time (i : SlotNo) (x : Slot) : (endStore s i x).time = s.time := rfl
@[simp] theorem startStore_lineRate (i : SlotNo) (x : Slot) (k : StoreKind) (p : Port) : (startStore s i x k p).lineRate = s.lineRate :=
    rfl
@[simp] theorem endStore_lineRate (i : SlotNo) (x : Slot) : (endStore s i x).lineRate = s.lineRate := rfl
@[simp] theorem startStore_counter (i : SlotNo) (x : Slot) (k : StoreKind) (p : Port) : (startStore s i x k p).counter = s.counter :=
    rfl
@[simp] theorem endStore_counter (i : SlotNo) (x : Slot) : (endStore s i x).counter = s.counter := rfl
@[simp] theorem startStore_monitor (i : SlotNo) (x : Slot) (k : StoreKind) (p : Port) : (startStore s i x k p).monitor = s.monitor :=
    rfl
@[simp] theorem endStore_monitor (i : SlotNo) (x : Slot) : (endStore s i x).monitor = s.monitor := rfl
@[simp] theorem startStore_active (i : SlotNo) (x : Slot) (k : StoreKind) (p : Port) : (startStore s i x k p).active = s.active :=
    rfl
@[simp] theorem endStore_active (i : SlotNo) (x : Slot) : (endStore s i x).active = s.active := rfl
@[simp] theorem startStore_session (i : SlotNo) (x : Slot) (k : StoreKind) (p : Port) : (startStore s i x k p).session = s.session :=
    rfl
@[simp] theorem endStore_session (i : SlotNo) (x : Slot) : (endStore s i x).session = s.session := rfl
@[simp] theorem startStore_tracks (i : SlotNo) (x : Slot) (k : StoreKind) (p : Port) : (startStore s i x k p).tracks = s.tracks :=
    rfl
@[simp] theorem endStore_tracks (i : SlotNo) (x : Slot) : (endStore s i x).tracks = s.tracks := rfl
@[simp] theorem startStore_oe (i : SlotNo) (x : Slot) (k : StoreKind) (p : Port) : (startStore s i x k p).oe = s.oe := rfl
@[simp] theorem endStore_oe (i : SlotNo) (x : Slot) : (endStore s i x).oe = s.oe := rfl
@[simp] theorem startStore_mail (i : SlotNo) (x : Slot) (k : StoreKind) (p : Port) : (startStore s i x k p).mail = s.mail :=
    rfl
@[simp] theorem endStore_mail (i : SlotNo) (x : Slot) : (endStore s i x).mail = s.mail := rfl
@[simp] theorem startStore_ports (i : SlotNo) (x : Slot) (k : StoreKind) (p : Port) : (startStore s i x k p).ports = s.ports :=
    rfl
@[simp] theorem endStore_ports (i : SlotNo) (x : Slot) : (endStore s i x).ports = s.ports := rfl
@[simp] theorem startStore_choices (i : SlotNo) (x : Slot) (k : StoreKind) (p : Port) : (startStore s i x k p).choices = s.choices :=
    rfl
@[simp] theorem endStore_choices (i : SlotNo) (x : Slot) : (endStore s i x).choices = s.choices := rfl
@[simp] theorem startStore_pending (i : SlotNo) (x : Slot) (k : StoreKind) (p : Port) : (startStore s i x k p).pending = s.pending :=
    rfl
@[simp] theorem endStore_pending (i : SlotNo) (x : Slot) : (endStore s i x).pending = s.pending := rfl

/-! ### `completeStore` -/
@[simp] theorem completeStore_lifecycle (b : Bool) : (completeStore b s).lifecycle = s.lifecycle :=
    by unfold completeStore; (repeat' split) <;> simp
@[simp] theorem completeStore_time (b : Bool) : (completeStore b s).time = s.time :=
    by unfold completeStore; (repeat' split) <;> simp
@[simp] theorem completeStore_lineRate (b : Bool) : (completeStore b s).lineRate = s.lineRate :=
    by unfold completeStore; (repeat' split) <;> simp
@[simp] theorem completeStore_counter (b : Bool) : (completeStore b s).counter = s.counter :=
    by unfold completeStore; (repeat' split) <;> simp
@[simp] theorem completeStore_monitor (b : Bool) : (completeStore b s).monitor = s.monitor :=
    by unfold completeStore; (repeat' split) <;> simp
@[simp] theorem completeStore_active (b : Bool) : (completeStore b s).active = s.active :=
    by unfold completeStore; (repeat' split) <;> simp
@[simp] theorem completeStore_session (b : Bool) : (completeStore b s).session = s.session :=
    by unfold completeStore; (repeat' split) <;> simp
@[simp] theorem completeStore_tracks (b : Bool) : (completeStore b s).tracks = s.tracks :=
    by unfold completeStore; (repeat' split) <;> simp
@[simp] theorem completeStore_oe (b : Bool) : (completeStore b s).oe = s.oe :=
    by unfold completeStore; (repeat' split) <;> simp
@[simp] theorem completeStore_ports (b : Bool) : (completeStore b s).ports = s.ports :=
    by unfold completeStore; (repeat' split) <;> simp
@[simp] theorem completeStore_choices (b : Bool) : (completeStore b s).choices = s.choices :=
    by unfold completeStore; (repeat' split) <;> simp
@[simp] theorem completeStore_pending (b : Bool) : (completeStore b s).pending = s.pending :=
    by unfold completeStore; (repeat' split) <;> simp

/-! ### `completeErase` -/
@[simp] theorem completeErase_lifecycle : (completeErase s).lifecycle = s.lifecycle :=
    by unfold completeErase; split <;> simp
@[simp] theorem completeErase_time : (completeErase s).time = s.time := by unfold completeErase; split <;> simp
@[simp] theorem completeErase_lineRate : (completeErase s).lineRate = s.lineRate := by unfold completeErase; split <;> simp
@[simp] theorem completeErase_counter : (completeErase s).counter = s.counter := by unfold completeErase; split <;> simp
@[simp] theorem completeErase_monitor : (completeErase s).monitor = s.monitor := by unfold completeErase; split <;> simp
@[simp] theorem completeErase_active : (completeErase s).active = s.active := by unfold completeErase; split <;> simp
@[simp] theorem completeErase_session : (completeErase s).session = s.session := by unfold completeErase; split <;> simp
@[simp] theorem completeErase_tracks : (completeErase s).tracks = s.tracks := by unfold completeErase; split <;> simp
@[simp] theorem completeErase_oe : (completeErase s).oe = s.oe := by unfold completeErase; split <;> simp
@[simp] theorem completeErase_ports : (completeErase s).ports = s.ports := by unfold completeErase; split <;> simp
@[simp] theorem completeErase_choices : (completeErase s).choices = s.choices := by unfold completeErase; split <;> simp
@[simp] theorem completeErase_pending : (completeErase s).pending = s.pending := by unfold completeErase; split <;> simp

/-! ### `resetAxisOf` -/
@[simp] theorem resetAxisOf_lifecycle (p : Port) (c : ResetCause) : (resetAxisOf p c s).lifecycle = s.lifecycle :=
    by unfold resetAxisOf; split <;> simp
@[simp] theorem resetAxisOf_time (p : Port) (c : ResetCause) : (resetAxisOf p c s).time = s.time :=
    by unfold resetAxisOf; split <;> simp
@[simp] theorem resetAxisOf_lineRate (p : Port) (c : ResetCause) : (resetAxisOf p c s).lineRate = s.lineRate :=
    by unfold resetAxisOf; split <;> simp
@[simp] theorem resetAxisOf_monitor (p : Port) (c : ResetCause) : (resetAxisOf p c s).monitor = s.monitor :=
    by unfold resetAxisOf; split <;> simp
@[simp] theorem resetAxisOf_active (p : Port) (c : ResetCause) : (resetAxisOf p c s).active = s.active :=
    by unfold resetAxisOf; split <;> simp
@[simp] theorem resetAxisOf_session (p : Port) (c : ResetCause) : (resetAxisOf p c s).session = s.session :=
    by unfold resetAxisOf; split <;> simp
@[simp] theorem resetAxisOf_tracks (p : Port) (c : ResetCause) : (resetAxisOf p c s).tracks = s.tracks :=
    by unfold resetAxisOf; split <;> simp
@[simp] theorem resetAxisOf_oe (p : Port) (c : ResetCause) : (resetAxisOf p c s).oe = s.oe :=
    by unfold resetAxisOf; split <;> simp
@[simp] theorem resetAxisOf_store (p : Port) (c : ResetCause) : (resetAxisOf p c s).store = s.store :=
    by unfold resetAxisOf; split <;> simp
@[simp] theorem resetAxisOf_ports (p : Port) (c : ResetCause) : (resetAxisOf p c s).ports = s.ports :=
    by unfold resetAxisOf; split <;> simp
@[simp] theorem resetAxisOf_choices (p : Port) (c : ResetCause) : (resetAxisOf p c s).choices = s.choices :=
    by unfold resetAxisOf; split <;> simp
@[simp] theorem resetAxisOf_pending (p : Port) (c : ResetCause) : (resetAxisOf p c s).pending = s.pending :=
    by unfold resetAxisOf; split <;> simp

/-! ### `resetTracksOf` -/
@[simp] theorem resetTracksOf_lifecycle (p : Port) (c : ResetCause) : (resetTracksOf p c s).lifecycle = s.lifecycle :=
    by unfold resetTracksOf; split <;> simp
@[simp] theorem resetTracksOf_time (p : Port) (c : ResetCause) : (resetTracksOf p c s).time = s.time :=
    by unfold resetTracksOf; split <;> simp
@[simp] theorem resetTracksOf_lineRate (p : Port) (c : ResetCause) : (resetTracksOf p c s).lineRate = s.lineRate :=
    by unfold resetTracksOf; split <;> simp
@[simp] theorem resetTracksOf_counter (p : Port) (c : ResetCause) : (resetTracksOf p c s).counter = s.counter :=
    by unfold resetTracksOf; split <;> simp
@[simp] theorem resetTracksOf_monitor (p : Port) (c : ResetCause) : (resetTracksOf p c s).monitor = s.monitor :=
    by unfold resetTracksOf; split <;> simp
@[simp] theorem resetTracksOf_active (p : Port) (c : ResetCause) : (resetTracksOf p c s).active = s.active :=
    by unfold resetTracksOf; split <;> simp
@[simp] theorem resetTracksOf_session (p : Port) (c : ResetCause) : (resetTracksOf p c s).session = s.session :=
    by unfold resetTracksOf; split <;> simp
@[simp] theorem resetTracksOf_oe (p : Port) (c : ResetCause) : (resetTracksOf p c s).oe = s.oe :=
    by unfold resetTracksOf; split <;> simp
@[simp] theorem resetTracksOf_store (p : Port) (c : ResetCause) : (resetTracksOf p c s).store = s.store :=
    by unfold resetTracksOf; split <;> simp
@[simp] theorem resetTracksOf_ports (p : Port) (c : ResetCause) : (resetTracksOf p c s).ports = s.ports :=
    by unfold resetTracksOf; split <;> simp
@[simp] theorem resetTracksOf_choices (p : Port) (c : ResetCause) : (resetTracksOf p c s).choices = s.choices :=
    by unfold resetTracksOf; split <;> simp
@[simp] theorem resetTracksOf_pending (p : Port) (c : ResetCause) : (resetTracksOf p c s).pending = s.pending :=
    by unfold resetTracksOf; split <;> simp

/-! ### `resetSessionOf` -/
@[simp] theorem resetSessionOf_lifecycle (p : Port) : (resetSessionOf p s).lifecycle = s.lifecycle :=
    by unfold resetSessionOf; split <;> simp
@[simp] theorem resetSessionOf_time (p : Port) : (resetSessionOf p s).time = s.time :=
    by unfold resetSessionOf; split <;> simp
@[simp] theorem resetSessionOf_lineRate (p : Port) : (resetSessionOf p s).lineRate = s.lineRate :=
    by unfold resetSessionOf; split <;> simp
@[simp] theorem resetSessionOf_counter (p : Port) : (resetSessionOf p s).counter = s.counter :=
    by unfold resetSessionOf; split <;> simp
@[simp] theorem resetSessionOf_monitor (p : Port) : (resetSessionOf p s).monitor = s.monitor :=
    by unfold resetSessionOf; split <;> simp
@[simp] theorem resetSessionOf_active (p : Port) : (resetSessionOf p s).active = s.active :=
    by unfold resetSessionOf; split <;> simp
@[simp] theorem resetSessionOf_tracks (p : Port) : (resetSessionOf p s).tracks = s.tracks :=
    by unfold resetSessionOf; split <;> simp
@[simp] theorem resetSessionOf_oe (p : Port) : (resetSessionOf p s).oe = s.oe := by unfold resetSessionOf; split <;> simp
@[simp] theorem resetSessionOf_store (p : Port) : (resetSessionOf p s).store = s.store :=
    by unfold resetSessionOf; split <;> simp
@[simp] theorem resetSessionOf_mail (p : Port) : (resetSessionOf p s).mail = s.mail :=
    by unfold resetSessionOf; split <;> simp
@[simp] theorem resetSessionOf_ports (p : Port) : (resetSessionOf p s).ports = s.ports :=
    by unfold resetSessionOf; split <;> simp
@[simp] theorem resetSessionOf_choices (p : Port) : (resetSessionOf p s).choices = s.choices :=
    by unfold resetSessionOf; split <;> simp
@[simp] theorem resetSessionOf_pending (p : Port) : (resetSessionOf p s).pending = s.pending :=
    by unfold resetSessionOf; split <;> simp

/-! ### `resetRequesterOf` -/
@[simp] theorem resetRequesterOf_lifecycle (p : Port) : (resetRequesterOf p s).lifecycle = s.lifecycle := rfl
@[simp] theorem resetRequesterOf_time (p : Port) : (resetRequesterOf p s).time = s.time := rfl
@[simp] theorem resetRequesterOf_lineRate (p : Port) : (resetRequesterOf p s).lineRate = s.lineRate := rfl
@[simp] theorem resetRequesterOf_counter (p : Port) : (resetRequesterOf p s).counter = s.counter := rfl
@[simp] theorem resetRequesterOf_monitor (p : Port) : (resetRequesterOf p s).monitor = s.monitor := rfl
@[simp] theorem resetRequesterOf_active (p : Port) : (resetRequesterOf p s).active = s.active := rfl
@[simp] theorem resetRequesterOf_session (p : Port) : (resetRequesterOf p s).session = s.session := rfl
@[simp] theorem resetRequesterOf_tracks (p : Port) : (resetRequesterOf p s).tracks = s.tracks := rfl
@[simp] theorem resetRequesterOf_oe (p : Port) : (resetRequesterOf p s).oe = s.oe := rfl
@[simp] theorem resetRequesterOf_mail (p : Port) : (resetRequesterOf p s).mail = s.mail := rfl
@[simp] theorem resetRequesterOf_ports (p : Port) : (resetRequesterOf p s).ports = s.ports := rfl
@[simp] theorem resetRequesterOf_choices (p : Port) : (resetRequesterOf p s).choices = s.choices := rfl
@[simp] theorem resetRequesterOf_pending (p : Port) : (resetRequesterOf p s).pending = s.pending := rfl

/-! ### `resetBoxOf` -/
@[simp] theorem resetBoxOf_lifecycle (p : Port) : (resetBoxOf p s).lifecycle = s.lifecycle := rfl
@[simp] theorem resetBoxOf_time (p : Port) : (resetBoxOf p s).time = s.time := rfl
@[simp] theorem resetBoxOf_lineRate (p : Port) : (resetBoxOf p s).lineRate = s.lineRate := rfl
@[simp] theorem resetBoxOf_counter (p : Port) : (resetBoxOf p s).counter = s.counter := rfl
@[simp] theorem resetBoxOf_monitor (p : Port) : (resetBoxOf p s).monitor = s.monitor := rfl
@[simp] theorem resetBoxOf_active (p : Port) : (resetBoxOf p s).active = s.active := rfl
@[simp] theorem resetBoxOf_session (p : Port) : (resetBoxOf p s).session = s.session := rfl
@[simp] theorem resetBoxOf_tracks (p : Port) : (resetBoxOf p s).tracks = s.tracks := rfl
@[simp] theorem resetBoxOf_oe (p : Port) : (resetBoxOf p s).oe = s.oe := rfl
@[simp] theorem resetBoxOf_store (p : Port) : (resetBoxOf p s).store = s.store := rfl
@[simp] theorem resetBoxOf_ports (p : Port) : (resetBoxOf p s).ports = s.ports := rfl
@[simp] theorem resetBoxOf_choices (p : Port) : (resetBoxOf p s).choices = s.choices := rfl
@[simp] theorem resetBoxOf_pending (p : Port) : (resetBoxOf p s).pending = s.pending := rfl

/-! ### `portReset` -/
@[simp] theorem portReset_lifecycle (p : Port) (c : ResetCause) : (portReset p c s).lifecycle = s.lifecycle :=
    by simp [portReset]
@[simp] theorem portReset_time (p : Port) (c : ResetCause) : (portReset p c s).time = s.time := by simp [portReset]
@[simp] theorem portReset_lineRate (p : Port) (c : ResetCause) : (portReset p c s).lineRate = s.lineRate :=
    by simp [portReset]
@[simp] theorem portReset_monitor (p : Port) (c : ResetCause) : (portReset p c s).monitor = s.monitor := by simp [portReset]
@[simp] theorem portReset_active (p : Port) (c : ResetCause) : (portReset p c s).active = s.active := by simp [portReset]
@[simp] theorem portReset_oe (p : Port) (c : ResetCause) : (portReset p c s).oe = s.oe := by simp [portReset]
@[simp] theorem portReset_choices (p : Port) (c : ResetCause) : (portReset p c s).choices = s.choices := by simp [portReset]
@[simp] theorem portReset_pending (p : Port) (c : ResetCause) : (portReset p c s).pending = s.pending := by simp [portReset]

/-! ### `restartTimer` -/
@[simp] theorem restartTimer_lifecycle (p : Port) : (restartTimer p s).lifecycle = s.lifecycle := rfl
@[simp] theorem restartTimer_time (p : Port) : (restartTimer p s).time = s.time := rfl
@[simp] theorem restartTimer_lineRate (p : Port) : (restartTimer p s).lineRate = s.lineRate := rfl
@[simp] theorem restartTimer_counter (p : Port) : (restartTimer p s).counter = s.counter := rfl
@[simp] theorem restartTimer_monitor (p : Port) : (restartTimer p s).monitor = s.monitor := rfl
@[simp] theorem restartTimer_active (p : Port) : (restartTimer p s).active = s.active := rfl
@[simp] theorem restartTimer_session (p : Port) : (restartTimer p s).session = s.session := rfl
@[simp] theorem restartTimer_tracks (p : Port) : (restartTimer p s).tracks = s.tracks := rfl
@[simp] theorem restartTimer_oe (p : Port) : (restartTimer p s).oe = s.oe := rfl
@[simp] theorem restartTimer_store (p : Port) : (restartTimer p s).store = s.store := rfl
@[simp] theorem restartTimer_mail (p : Port) : (restartTimer p s).mail = s.mail := rfl
@[simp] theorem restartTimer_choices (p : Port) : (restartTimer p s).choices = s.choices := rfl
@[simp] theorem restartTimer_pending (p : Port) : (restartTimer p s).pending = s.pending := rfl

/-! ### `sendReplay` -/
@[simp] theorem sendReplay_lifecycle (p : Port) (x : Response) : (sendReplay p x s).lifecycle = s.lifecycle := rfl
@[simp] theorem sendReplay_time (p : Port) (x : Response) : (sendReplay p x s).time = s.time := rfl
@[simp] theorem sendReplay_lineRate (p : Port) (x : Response) : (sendReplay p x s).lineRate = s.lineRate := rfl
@[simp] theorem sendReplay_counter (p : Port) (x : Response) : (sendReplay p x s).counter = s.counter := rfl
@[simp] theorem sendReplay_monitor (p : Port) (x : Response) : (sendReplay p x s).monitor = s.monitor := rfl
@[simp] theorem sendReplay_active (p : Port) (x : Response) : (sendReplay p x s).active = s.active := rfl
@[simp] theorem sendReplay_session (p : Port) (x : Response) : (sendReplay p x s).session = s.session := rfl
@[simp] theorem sendReplay_tracks (p : Port) (x : Response) : (sendReplay p x s).tracks = s.tracks := rfl
@[simp] theorem sendReplay_oe (p : Port) (x : Response) : (sendReplay p x s).oe = s.oe := rfl
@[simp] theorem sendReplay_store (p : Port) (x : Response) : (sendReplay p x s).store = s.store := rfl
@[simp] theorem sendReplay_mail (p : Port) (x : Response) : (sendReplay p x s).mail = s.mail := rfl
@[simp] theorem sendReplay_choices (p : Port) (x : Response) : (sendReplay p x s).choices = s.choices := rfl
@[simp] theorem sendReplay_pending (p : Port) (x : Response) : (sendReplay p x s).pending = s.pending := rfl

/-! ### `sendResponse` -/
@[simp] theorem sendResponse_lifecycle (p : Port) (k : Word16) (x : Response) : (sendResponse p k x s).lifecycle = s.lifecycle :=
    rfl
@[simp] theorem sendResponse_time (p : Port) (k : Word16) (x : Response) : (sendResponse p k x s).time = s.time := rfl
@[simp] theorem sendResponse_lineRate (p : Port) (k : Word16) (x : Response) : (sendResponse p k x s).lineRate = s.lineRate :=
    rfl
@[simp] theorem sendResponse_counter (p : Port) (k : Word16) (x : Response) : (sendResponse p k x s).counter = s.counter :=
    rfl
@[simp] theorem sendResponse_monitor (p : Port) (k : Word16) (x : Response) : (sendResponse p k x s).monitor = s.monitor :=
    rfl
@[simp] theorem sendResponse_active (p : Port) (k : Word16) (x : Response) : (sendResponse p k x s).active = s.active := rfl
@[simp] theorem sendResponse_session (p : Port) (k : Word16) (x : Response) : (sendResponse p k x s).session = s.session :=
    rfl
@[simp] theorem sendResponse_tracks (p : Port) (k : Word16) (x : Response) : (sendResponse p k x s).tracks = s.tracks := rfl
@[simp] theorem sendResponse_oe (p : Port) (k : Word16) (x : Response) : (sendResponse p k x s).oe = s.oe := rfl
@[simp] theorem sendResponse_store (p : Port) (k : Word16) (x : Response) : (sendResponse p k x s).store = s.store := rfl
@[simp] theorem sendResponse_mail (p : Port) (k : Word16) (x : Response) : (sendResponse p k x s).mail = s.mail := rfl
@[simp] theorem sendResponse_choices (p : Port) (k : Word16) (x : Response) : (sendResponse p k x s).choices = s.choices :=
    rfl
@[simp] theorem sendResponse_pending (p : Port) (k : Word16) (x : Response) : (sendResponse p k x s).pending = s.pending :=
    rfl

/-! ### `After.act` -/
@[simp] theorem after_act_lifecycle (a : After) (p : Port) : (a.act p s).lifecycle = s.lifecycle :=
    by cases a <;> simp [After.act]
@[simp] theorem after_act_time (a : After) (p : Port) : (a.act p s).time = s.time := by cases a <;> simp [After.act]
@[simp] theorem after_act_lineRate (a : After) (p : Port) : (a.act p s).lineRate = s.lineRate :=
    by cases a <;> simp [After.act]
@[simp] theorem after_act_monitor (a : After) (p : Port) : (a.act p s).monitor = s.monitor := by cases a <;> simp [After.act]
@[simp] theorem after_act_active (a : After) (p : Port) : (a.act p s).active = s.active := by cases a <;> simp [After.act]
@[simp] theorem after_act_oe (a : After) (p : Port) : (a.act p s).oe = s.oe := by cases a <;> simp [After.act]
@[simp] theorem after_act_choices (a : After) (p : Port) : (a.act p s).choices = s.choices := by cases a <;> simp [After.act]
@[simp] theorem after_act_pending (a : After) (p : Port) : (a.act p s).pending = s.pending := by cases a <;> simp [After.act]

/-! ### `frameErrorAt` -/
@[simp] theorem frameErrorAt_lifecycle (p : Port) : (frameErrorAt p s).lifecycle = s.lifecycle := rfl
@[simp] theorem frameErrorAt_time (p : Port) : (frameErrorAt p s).time = s.time := rfl
@[simp] theorem frameErrorAt_lineRate (p : Port) : (frameErrorAt p s).lineRate = s.lineRate := rfl
@[simp] theorem frameErrorAt_counter (p : Port) : (frameErrorAt p s).counter = s.counter := rfl
@[simp] theorem frameErrorAt_monitor (p : Port) : (frameErrorAt p s).monitor = s.monitor := rfl
@[simp] theorem frameErrorAt_active (p : Port) : (frameErrorAt p s).active = s.active := rfl
@[simp] theorem frameErrorAt_session (p : Port) : (frameErrorAt p s).session = s.session := rfl
@[simp] theorem frameErrorAt_tracks (p : Port) : (frameErrorAt p s).tracks = s.tracks := rfl
@[simp] theorem frameErrorAt_oe (p : Port) : (frameErrorAt p s).oe = s.oe := rfl
@[simp] theorem frameErrorAt_store (p : Port) : (frameErrorAt p s).store = s.store := rfl
@[simp] theorem frameErrorAt_mail (p : Port) : (frameErrorAt p s).mail = s.mail := rfl
@[simp] theorem frameErrorAt_choices (p : Port) : (frameErrorAt p s).choices = s.choices := rfl
@[simp] theorem frameErrorAt_pending (p : Port) : (frameErrorAt p s).pending = s.pending := rfl

/-! ### `charHunting` -/
@[simp] theorem charHunting_lifecycle (p : Port) (b : Byte) : (charHunting p b s).lifecycle = s.lifecycle :=
    by unfold charHunting; (repeat' split) <;> rfl
@[simp] theorem charHunting_time (p : Port) (b : Byte) : (charHunting p b s).time = s.time :=
    by unfold charHunting; (repeat' split) <;> rfl
@[simp] theorem charHunting_lineRate (p : Port) (b : Byte) : (charHunting p b s).lineRate = s.lineRate :=
    by unfold charHunting; (repeat' split) <;> rfl
@[simp] theorem charHunting_counter (p : Port) (b : Byte) : (charHunting p b s).counter = s.counter :=
    by unfold charHunting; (repeat' split) <;> rfl
@[simp] theorem charHunting_monitor (p : Port) (b : Byte) : (charHunting p b s).monitor = s.monitor :=
    by unfold charHunting; (repeat' split) <;> rfl
@[simp] theorem charHunting_active (p : Port) (b : Byte) : (charHunting p b s).active = s.active :=
    by unfold charHunting; (repeat' split) <;> rfl
@[simp] theorem charHunting_session (p : Port) (b : Byte) : (charHunting p b s).session = s.session :=
    by unfold charHunting; (repeat' split) <;> rfl
@[simp] theorem charHunting_tracks (p : Port) (b : Byte) : (charHunting p b s).tracks = s.tracks :=
    by unfold charHunting; (repeat' split) <;> rfl
@[simp] theorem charHunting_oe (p : Port) (b : Byte) : (charHunting p b s).oe = s.oe :=
    by unfold charHunting; (repeat' split) <;> rfl
@[simp] theorem charHunting_store (p : Port) (b : Byte) : (charHunting p b s).store = s.store :=
    by unfold charHunting; (repeat' split) <;> rfl
@[simp] theorem charHunting_mail (p : Port) (b : Byte) : (charHunting p b s).mail = s.mail :=
    by unfold charHunting; (repeat' split) <;> rfl
@[simp] theorem charHunting_choices (p : Port) (b : Byte) : (charHunting p b s).choices = s.choices :=
    by unfold charHunting; (repeat' split) <;> rfl
@[simp] theorem charHunting_pending (p : Port) (b : Byte) : (charHunting p b s).pending = s.pending :=
    by unfold charHunting; (repeat' split) <;> rfl

/-! ### `charSkipping` -/
@[simp] theorem charSkipping_lifecycle (p : Port) (cs : List Byte) : (charSkipping p cs s).lifecycle = s.lifecycle :=
    by unfold charSkipping; (repeat' split) <;> rfl
@[simp] theorem charSkipping_time (p : Port) (cs : List Byte) : (charSkipping p cs s).time = s.time :=
    by unfold charSkipping; (repeat' split) <;> rfl
@[simp] theorem charSkipping_lineRate (p : Port) (cs : List Byte) : (charSkipping p cs s).lineRate = s.lineRate :=
    by unfold charSkipping; (repeat' split) <;> rfl
@[simp] theorem charSkipping_counter (p : Port) (cs : List Byte) : (charSkipping p cs s).counter = s.counter :=
    by unfold charSkipping; (repeat' split) <;> rfl
@[simp] theorem charSkipping_monitor (p : Port) (cs : List Byte) : (charSkipping p cs s).monitor = s.monitor :=
    by unfold charSkipping; (repeat' split) <;> rfl
@[simp] theorem charSkipping_active (p : Port) (cs : List Byte) : (charSkipping p cs s).active = s.active :=
    by unfold charSkipping; (repeat' split) <;> rfl
@[simp] theorem charSkipping_session (p : Port) (cs : List Byte) : (charSkipping p cs s).session = s.session :=
    by unfold charSkipping; (repeat' split) <;> rfl
@[simp] theorem charSkipping_tracks (p : Port) (cs : List Byte) : (charSkipping p cs s).tracks = s.tracks :=
    by unfold charSkipping; (repeat' split) <;> rfl
@[simp] theorem charSkipping_oe (p : Port) (cs : List Byte) : (charSkipping p cs s).oe = s.oe :=
    by unfold charSkipping; (repeat' split) <;> rfl
@[simp] theorem charSkipping_store (p : Port) (cs : List Byte) : (charSkipping p cs s).store = s.store :=
    by unfold charSkipping; (repeat' split) <;> rfl
@[simp] theorem charSkipping_mail (p : Port) (cs : List Byte) : (charSkipping p cs s).mail = s.mail :=
    by unfold charSkipping; (repeat' split) <;> rfl
@[simp] theorem charSkipping_choices (p : Port) (cs : List Byte) : (charSkipping p cs s).choices = s.choices :=
    by unfold charSkipping; (repeat' split) <;> rfl
@[simp] theorem charSkipping_pending (p : Port) (cs : List Byte) : (charSkipping p cs s).pending = s.pending :=
    by unfold charSkipping; (repeat' split) <;> rfl

/-! ### `silence` -/
@[simp] theorem silence_lifecycle (p : Port) : (silence p s).lifecycle = s.lifecycle :=
    by unfold silence; (repeat' split) <;> rfl
@[simp] theorem silence_time (p : Port) : (silence p s).time = s.time := by unfold silence; (repeat' split) <;> rfl
@[simp] theorem silence_lineRate (p : Port) : (silence p s).lineRate = s.lineRate :=
    by unfold silence; (repeat' split) <;> rfl
@[simp] theorem silence_counter (p : Port) : (silence p s).counter = s.counter := by unfold silence; (repeat' split) <;> rfl
@[simp] theorem silence_monitor (p : Port) : (silence p s).monitor = s.monitor := by unfold silence; (repeat' split) <;> rfl
@[simp] theorem silence_active (p : Port) : (silence p s).active = s.active := by unfold silence; (repeat' split) <;> rfl
@[simp] theorem silence_session (p : Port) : (silence p s).session = s.session := by unfold silence; (repeat' split) <;> rfl
@[simp] theorem silence_tracks (p : Port) : (silence p s).tracks = s.tracks := by unfold silence; (repeat' split) <;> rfl
@[simp] theorem silence_oe (p : Port) : (silence p s).oe = s.oe := by unfold silence; (repeat' split) <;> rfl
@[simp] theorem silence_store (p : Port) : (silence p s).store = s.store := by unfold silence; (repeat' split) <;> rfl
@[simp] theorem silence_mail (p : Port) : (silence p s).mail = s.mail := by unfold silence; (repeat' split) <;> rfl
@[simp] theorem silence_choices (p : Port) : (silence p s).choices = s.choices := by unfold silence; (repeat' split) <;> rfl
@[simp] theorem silence_pending (p : Port) : (silence p s).pending = s.pending := by unfold silence; (repeat' split) <;> rfl

/-! ### `charFault` -/
@[simp] theorem charFault_lifecycle (p : Port) : (charFault p s).lifecycle = s.lifecycle :=
    by unfold charFault; (repeat' split) <;> rfl
@[simp] theorem charFault_time (p : Port) : (charFault p s).time = s.time := by unfold charFault; (repeat' split) <;> rfl
@[simp] theorem charFault_lineRate (p : Port) : (charFault p s).lineRate = s.lineRate :=
    by unfold charFault; (repeat' split) <;> rfl
@[simp] theorem charFault_counter (p : Port) : (charFault p s).counter = s.counter :=
    by unfold charFault; (repeat' split) <;> rfl
@[simp] theorem charFault_monitor (p : Port) : (charFault p s).monitor = s.monitor :=
    by unfold charFault; (repeat' split) <;> rfl
@[simp] theorem charFault_active (p : Port) : (charFault p s).active = s.active :=
    by unfold charFault; (repeat' split) <;> rfl
@[simp] theorem charFault_session (p : Port) : (charFault p s).session = s.session :=
    by unfold charFault; (repeat' split) <;> rfl
@[simp] theorem charFault_tracks (p : Port) : (charFault p s).tracks = s.tracks :=
    by unfold charFault; (repeat' split) <;> rfl
@[simp] theorem charFault_oe (p : Port) : (charFault p s).oe = s.oe := by unfold charFault; (repeat' split) <;> rfl
@[simp] theorem charFault_store (p : Port) : (charFault p s).store = s.store := by unfold charFault; (repeat' split) <;> rfl
@[simp] theorem charFault_mail (p : Port) : (charFault p s).mail = s.mail := by unfold charFault; (repeat' split) <;> rfl
@[simp] theorem charFault_choices (p : Port) : (charFault p s).choices = s.choices :=
    by unfold charFault; (repeat' split) <;> rfl
@[simp] theorem charFault_pending (p : Port) : (charFault p s).pending = s.pending :=
    by unfold charFault; (repeat' split) <;> rfl

/-! ### `deviceReset` and `endLoad`: the port records -/

/-- A device reset takes no note of the receive lines away. -/
@[simp] theorem deviceReset_port (p : Port) (s : State) :
    (deviceReset s).port p = { PortRec.reset with line := (s.port p).line } := Table.look_build _ _

/-- The end of the load leaves the port records, and with them what is on record of the lines. -/
@[simp] theorem endLoad_port (p : Port) (s : State) : (endLoad s).port p = s.port p := by
  simp only [endLoad, State.port, setLifecycle_ports, settleLevels_ports, setMonitor_ports]
  split <;> simp [applyImage]

@[simp] theorem endLoad_lifecycle (s : State) : (endLoad s).lifecycle = .running := rfl

end Sys2Proof.Machine
end

