-- ==== Sys2Proof/Laws/Reception.lean ====
section
/-! SUPPORT. What a whole frame does at a port that hears it: the receiver hands it to `takeFrame` as one event; and
what characters do while the ports do not receive. -/

namespace Sys2Proof.Machine

/-! ## Bytes -/

@[simp] theorem be16_length (w : Word16) : (be16 w).length = 2 := rfl

theorem be16_join (w : Word16) : (w.extractLsb' 8 8 ++ w.extractLsb' 0 8 : BitVec 16) = w := by
  refine BitVec.eq_of_getLsbD_eq fun i hi => ?_
  rw [BitVec.getLsbD_append]
  split
  · simp [*]
  · next h =>
    have h8 : 8 + (i - 8) = i := by omega
    have h9 : i - 8 < 8 := by omega
    simp [h8, h9]

theorem byteOf_toNat {n : Nat} (h : n < 256) : (byteOf n).toNat = n := by
  simp [byteOf]; omega

/-! ## The characters of a line -/

/-- A byte is read back from its bits. -/
theorem byteOfBits_data (b : Byte) : byteOfBits ((List.range 8).map b.getLsbD) = b := by
  revert b; decide +kernel

/-- A character is read from an idle line; after a stop bit at 0 the reader waits for the line to return to 1 (R138). -/
theorem readBits_character (c : LineCharacter) (rest : List Bool) :
    readBits .idle (c.bits ++ rest) = c :: readBits (if c.stop then .idle else .low) rest := by
  have data := byteOfBits_data c.data
  simp only [List.range, List.range.loop, List.map] at data
  simp [LineCharacter.bits, List.range, List.range.loop, readBits, -BitVec.getLsbD_eq_getElem, data]

/-- A line at 1 carries no character. -/
theorem readBits_idle (n : Nat) (rest : List Bool) :
    readBits .idle (List.replicate n true ++ rest) = readBits .idle rest := by
  induction n with
  | zero => rfl
  | succ n ih => simpa [List.replicate_succ, readBits] using ih

/-- A line held at 0 carries no further character, however long (R138). -/
theorem readBits_low (n : Nat) (rest : List Bool) :
    readBits .low (List.replicate n false ++ rest) = readBits .low rest := by
  induction n with
  | zero => rfl
  | succ n ih => simpa [List.replicate_succ, readBits] using ih

theorem readBits_lineBits (chars : List Byte) (rest : List Bool) :
    readBits .idle (lineBits chars ++ rest) =
      (chars.map fun b => { data := b, stop := true }) ++ readBits .idle rest := by
  induction chars with
  | nil => rfl
  | cons b chars ih =>
    have split : lineBits (b :: chars) ++ rest =
        LineCharacter.bits { data := b, stop := true } ++ (lineBits chars ++ rest) := by simp [lineBits]
    rw [split, readBits_character]
    simp [ih]

/-- What the receiver takes from the bits of characters, and from what follows them. -/
theorem receiveLine_lineBits (p : Port) (chars : List Byte) (rest : List Bool) (s : State) :
    receiveLine p (lineBits chars ++ rest) s = receiveLine p rest (receiveChars p chars s) := by
  have whole := readBits_lineBits chars []
  simp only [List.append_nil, readBits] at whole
  simp only [receiveLine, receiveChars, readLine, readBits_lineBits, whole, List.foldl_append]

/-- Characters are taken one by one. -/
theorem receiveChars_eq (p : Port) (chars : List Byte) (s : State) :
    receiveChars p chars s = chars.foldl (receiveChar p) s := by
  have whole := readBits_lineBits chars []
  simp only [List.append_nil, readBits] at whole
  simp [receiveChars, receiveLine, readLine, whole, List.foldl_map, receiveCharacter]

@[simp] theorem receiveChars_nil (p : Port) (s : State) : receiveChars p [] s = s := rfl

theorem receiveChars_cons (p : Port) (b : Byte) (chars : List Byte) (s : State) :
    receiveChars p (b :: chars) s = receiveChars p chars (receiveChar p s b) := by
  simp [receiveChars_eq]

theorem receiveChars_append (p : Port) (chars more : List Byte) (s : State) :
    receiveChars p (chars ++ more) s = receiveChars p more (receiveChars p chars s) := by
  simp [receiveChars_eq]

/-- Bits that end in a stop bit at 0, the line at 0 from then on, give one character fault, whatever the data bits. -/
theorem receiveLine_fault (p : Port) (chars : List Byte) (b : Byte) (n : Nat) (s : State) :
    receiveLine p (lineBits chars ++ (LineCharacter.bits { data := b, stop := false } ++ List.replicate n false)) s =
      charFault p (receiveChars p chars s) := by
  have low := readBits_low n []
  simp only [List.append_nil, readBits] at low
  rw [receiveLine_lineBits]
  simp [receiveLine, readLine, readBits_character, low, receiveCharacter]

/-! ## Progress through a frame -/

/-- The characters after the delimiter of a frame that carries its length are the whole frame. -/
theorem progress_whole (seq code : Byte) (payload : List Byte) (check : Word16) (h : payload.length ≤ 160) :
    progress (seq :: code :: byteOf payload.length :: (payload ++ be16 check)) = .complete seq code payload check := by
  have hl : (byteOf payload.length).toNat = payload.length := byteOf_toNat (by omega)
  simp only [progress, hl]
  rw [if_neg (by omega), if_neg (by simp)]
  simp only [List.take_left]
  congr 1
  have h0 : (payload ++ be16 check).getD payload.length 0 = check.extractLsb' 8 8 := by simp [List.getD, be16]
  have h1 : (payload ++ be16 check).getD (payload.length + 1) 0 = check.extractLsb' 0 8 := by
    simp [List.getD, be16]
  rw [h0, h1, be16_join]

/-- Before its last character a frame is not yet whole. -/
theorem progress_part {seq code : Byte} {payload : List Byte} {check : Word16} (h : payload.length ≤ 160)
    {chars : List Byte} {b : Byte} {rest : List Byte}
    (e : seq :: code :: byteOf payload.length :: (payload ++ be16 check) = chars ++ b :: rest) :
    progress chars = .more := by
  have hl : (byteOf payload.length).toNat = payload.length := byteOf_toNat (by omega)
  match chars, e with
  | [], _ => rfl
  | [_], _ => rfl
  | [_, _], _ => rfl
  | a1 :: a2 :: a3 :: more, e =>
    simp only [List.cons_append, List.cons.injEq] at e
    obtain ⟨_, _, h3, e⟩ := e
    have hlen := congrArg List.length e
    simp at hlen
    simp only [progress, ← h3, hl]
    rw [if_neg (by omega), if_pos (by omega)]

/-! ## The receiver through a frame -/

/-- Port `p` in RECEIVING after these characters, the line at 1. -/
def inFrame (p : Port) (chars : List Byte) (s : State) : State :=
  s.setPort p { s.port p with line := .high, phase := .receiving chars }

theorem receiveChar_more (p : Port) (s : State) (b : Byte) (chars : List Byte) (hr : s.portsReceive = true)
    (h : progress (chars ++ [b]) = .more) :
    receiveChar p (inFrame p chars s) b = inFrame p (chars ++ [b]) s := by
  have hr' : (inFrame p chars s).portsReceive = true := hr
  simp only [receiveChar, hr', if_true]
  simp only [inFrame, port_setPort_same, charReceiving, h, State.setPhase, State.lineHigh, setPort_setPort]

theorem receiveChar_last (p : Port) (s : State) (b : Byte) (chars : List Byte) (hr : s.portsReceive = true)
    {seq code : Byte} {payload : List Byte} {check : Word16}
    (h : progress (chars ++ [b]) = .complete seq code payload check) :
    receiveChar p (inFrame p chars s) b = judgeFrame p seq code payload check (inFrame p chars s) := by
  have hr' : (inFrame p chars s).portsReceive = true := hr
  simp only [receiveChar, hr', if_true]
  simp only [inFrame, port_setPort_same, charReceiving, h, State.lineHigh, setPort_setPort]

/-- The characters of a frame that come before its last only lengthen what the receiver has kept. -/
theorem receiveChars_part (p : Port) (s : State) (hr : s.portsReceive = true) (more : List Byte) :
    ∀ (chars : List Byte), (∀ pre b post, more = pre ++ b :: post → progress (chars ++ pre ++ [b]) = .more) →
      receiveChars p more (inFrame p chars s) = inFrame p (chars ++ more) s := by
  induction more with
  | nil => intro chars _; simp
  | cons b rest ih =>
    intro chars h
    have h1 : progress (chars ++ [b]) = .more := by simpa using h [] b rest rfl
    rw [receiveChars_cons, receiveChar_more p s b chars hr h1, ih (chars ++ [b])]
    · simp
    · intro pre c post e
      have := h (b :: pre) c post (by simp [e])
      simpa using this

/-- A whole frame whose characters arrive at a port that hears it is judged once, at its last check byte (R141). -/
theorem receiveChars_frame (p : Port) (s : State) (seq code : Byte) (payload : List Byte) (check : Word16)
    (hh : Hears s p) (hp : payload.length ≤ 160) :
    ∃ chars, receiveChars p (frameChars seq code payload check) s =
      judgeFrame p seq code payload check (inFrame p chars s) := by
  obtain ⟨hr, hph, htx⟩ := hh
  let tail : List Byte := seq :: code :: byteOf payload.length :: (payload ++ [check.extractLsb' 8 8])
  have hwhole : tail ++ [check.extractLsb' 0 8] =
      seq :: code :: byteOf payload.length :: (payload ++ be16 check) := by simp [tail, be16]
  refine ⟨tail, ?_⟩
  have hfirst : receiveChar p s 0xD1 = inFrame p [] s := by
    simp [receiveChar, hr, hph, charHunting, htx, State.lineHigh, State.setPhase, inFrame, setPort_setPort]
  have hchars : frameChars seq code payload check = 0xD1 :: (tail ++ [check.extractLsb' 0 8]) := by
    simp [frameChars, tail, be16]
  have hpart : receiveChars p tail (inFrame p [] s) = inFrame p tail s := by
    have := receiveChars_part p s hr tail [] (by
      intro pre b post e
      refine progress_part (check := check) (seq := seq) (code := code) hp
        (b := (post ++ [check.extractLsb' 0 8]).headD 0) (rest := (post ++ [check.extractLsb' 0 8]).tail) ?_
      rw [← hwhole, e]
      cases post <;> simp)
    simpa using this
  have hsplit : receiveChars p (0xD1 :: (tail ++ [check.extractLsb' 0 8])) s =
      receiveChar p (receiveChars p tail (receiveChar p s 0xD1)) (check.extractLsb' 0 8) := by
    simp [receiveChars_eq]
  rw [hchars, hsplit, hfirst, hpart]
  refine receiveChar_last p s _ tail hr ?_
  rw [hwhole]
  exact progress_whole seq code payload check hp

/-! ## The commands that are valid frames -/

/-- A valid frame is taken as one event, with the line at 1 and the receiver hunting again. -/
theorem receiveChars_request (p : Port) (s : State) (seq code : Byte) (payload : List Byte)
    (hh : Hears s p) (hp : payload.length ≤ 160) :
    receiveChars p (requestChars seq code payload) s =
      takeFrame p seq code payload (requestCheck seq code payload) (s.lineHigh p) := by
  obtain ⟨chars, e⟩ := receiveChars_frame p s seq code payload (requestCheck seq code payload) hh hp
  rw [requestChars, e, judgeFrame, if_pos rfl]
  congr 1
  simp only [inFrame, State.setPhase, State.lineHigh, port_setPort_same, setPort_setPort]
  rw [← hh.2.1]

theorem restartTimer_lineHigh (p : Port) (s : State) : restartTimer p (s.lineHigh p) = heard p s := by
  simp [restartTimer, State.lineHigh, heard, setPort_setPort]

@[simp] theorem heard_cached (p : Port) (s : State) (q : Port) (seq code : Byte) (check : Word16) :
    (heard p s).cached q seq code check = s.cached q seq code check := by
  simp only [State.cached, heard, port_setPort]; split <;> simp_all

@[simp] theorem heard_isOpen (p : Port) (s : State) (q : Port) : (heard p s).isOpen q = s.isOpen q := by
  simp only [State.isOpen, heard, port_setPort]; split <;> simp_all

@[simp] theorem heard_lifecycle (p : Port) (s : State) : (heard p s).lifecycle = s.lifecycle := rfl
@[simp] theorem heard_time (p : Port) (s : State) : (heard p s).time = s.time := rfl
@[simp] theorem heard_lineRate (p : Port) (s : State) : (heard p s).lineRate = s.lineRate := rfl
@[simp] theorem heard_counter (p : Port) (s : State) : (heard p s).counter = s.counter := rfl
@[simp] theorem heard_monitor (p : Port) (s : State) : (heard p s).monitor = s.monitor := rfl
@[simp] theorem heard_active (p : Port) (s : State) : (heard p s).active = s.active := rfl
@[simp] theorem heard_session (p : Port) (s : State) : (heard p s).session = s.session := rfl
@[simp] theorem heard_tracks (p : Port) (s : State) : (heard p s).tracks = s.tracks := rfl
@[simp] theorem heard_oe (p : Port) (s : State) : (heard p s).oe = s.oe := rfl
@[simp] theorem heard_store (p : Port) (s : State) : (heard p s).store = s.store := rfl
@[simp] theorem heard_mail (p : Port) (s : State) : (heard p s).mail = s.mail := rfl
@[simp] theorem heard_choices (p : Port) (s : State) : (heard p s).choices = s.choices := rfl
@[simp] theorem heard_pending (p : Port) (s : State) : (heard p s).pending = s.pending := rfl
@[simp] theorem heard_track (p : Port) (s : State) (t : TrackNo) : (heard p s).track t = s.track t := rfl
@[simp] theorem heard_box (p : Port) (s : State) (q : Port) : (heard p s).box q = s.box q := rfl
@[simp] theorem heard_slot (p : Port) (s : State) (i : SlotNo) : (heard p s).slot i = s.slot i := rfl
@[simp] theorem heard_owns (p : Port) (s : State) (q : Port) (t : TrackNo) : (heard p s).owns q t = s.owns q t := rfl
@[simp] theorem heard_sessionOf (p : Port) (s : State) (q : Port) : (heard p s).sessionOf q = s.sessionOf q := rfl

/-- A frame that is no repeat is admitted in the state in which it was heard. -/
theorem takeFrame_fresh (p : Port) (s : State) (seq code : Byte) (payload : List Byte) (check : Word16)
    (hf : s.cached p seq code check = none) :
    takeFrame p seq code payload check (s.lineHigh p) =
      finish p seq code check (s.isOpen p) (admission p code payload (heard p s)) s.time := by
  simp only [takeFrame, restartTimer_lineHigh, heard_cached, hf, heard_isOpen, heard_time]

theorem lengthOk_le {r : Request} {n : Nat} (h : r.lengthOk n = true) : n ≤ 160 := by
  cases r <;> simp [Request.lengthOk, Request.fixedLength] at h <;> omega

@[simp] theorem ofCode_code (r : Request) : Request.ofCode r.code = some r := by cases r <;> rfl

theorem exec_command (r : Request) (p : Port) (seq : Byte) (payload : List Byte) (s : State) :
    exec (r.command p seq payload) s = .next (receiveChars p (requestChars seq r.code payload) s) := by
  cases r <;> rfl

/-- What the command of a heard request answers, whatever the port state. -/
theorem exec_heard {s : State} {p : Port} (r : Request) {seq : Byte} {payload : List Byte} (hh : Hears s p)
    (hf : Fresh s p seq r.code payload) (hl : payload.length ≤ 160) :
    exec (r.command p seq payload) s =
      .next (finish p seq r.code (requestCheck seq r.code payload) (s.isOpen p)
        (admission p r.code payload (heard p s)) s.time) := by
  rw [exec_command, receiveChars_request p s seq r.code payload hh hl, takeFrame_fresh p s _ _ _ _ hf]

/-- What the command of an accepted request answers: the owning block's reply, finished. -/
theorem exec_accepts {s : State} {p : Port} {r : Request} {seq : Byte} {payload : List Byte}
    (h : Accepts s p r seq payload) :
    exec (r.command p seq payload) s =
      .next (finish p seq r.code (requestCheck seq r.code payload) true (handle r p payload (heard p s)) s.time) := by
  obtain ⟨hh, ho, hf, hl⟩ := h
  have hst : ((heard p s).port p).state = .opened := by
    have := (heard_isOpen p s p).trans ho
    simpa [State.isOpen] using this
  rw [exec_heard r hh hf (lengthOk_le hl), ho]
  simp only [admission, hst, stateAdmits, if_true, ofCode_code, hl]

theorem flagByte_sum (a b c d e f g h : Bool) :
    flagByte a b c d e f g h =
      (if a then 0x01 else 0) + (if b then 0x02 else 0) + (if c then 0x04 else 0) + (if d then 0x08 else 0) +
      (if e then 0x10 else 0) + (if f then 0x20 else 0) + (if g then 0x40 else 0) + (if h then 0x80 else 0) := by
  revert a b c d e f g h; decide

/-- R160: the flags that a response carries. -/
theorem responseFlags_flagsAt (y : State) (p : Port) : responseFlags y p = flagsAt y p := by
  have h1 : flagEvents y p = decide ((y.box p).queue ≠ []) := by
    unfold flagEvents; cases (y.box p).queue <;> rfl
  have h3 : flagRefusal y p = decide ((y.port p).refusal ≠ none) := by
    unfold flagRefusal; cases (y.port p).refusal <;> rfl
  have h4 : flagAxisFault y = decide (y.monitor.faultRecord ≠ none) := by
    unfold flagAxisFault; cases y.monitor.faultRecord <;> rfl
  have h6 : flagSession y p = decide ((y.session.map EditSession.holder) = some p) := by
    unfold flagSession State.holdsSession; cases y.session <;> simp
  have h7 : flagPendingCommit y = decide ((y.session.bind EditSession.pending) ≠ none) := by
    unfold flagPendingCommit State.commitPending EditSession.isPending
    cases y.session with
    | none => rfl
    | some e => obtain ⟨h, b, pd⟩ := e; cases pd <;> rfl
  have h8 : flagStoreBusy y = decide (y.store.op ≠ none) := by
    unfold flagStoreBusy; cases y.store.op <;> rfl
  unfold responseFlags flagsAt
  rw [flagByte_sum, h1, h3, h4, h6, h7, h8]
  simp only [flagLost, flagReferenced, decide_eq_true_eq]

/-- A reply that is no refusal and has no consequence is sent. -/
theorem finish_done (p : Port) (seq code : Byte) (check : Word16) (b : Bool) (y : State) (status : Status)
    (detail : Word16) (out : List Byte) (time : Word32) (h : status.refuses = false) :
    finish p seq code check b { state := y, status, detail, payload := out, after := .nothing } time =
      sent y p seq code check status detail out := by
  simp [finish, h, After.act, sent, sendResponse, compose, responseFlags_flagsAt]

/-- A refusal at an OPEN port is recorded and sent. -/
theorem finish_refused (p : Port) (seq code : Byte) (check : Word16) (y : State) (status : Status) (detail : Word16)
    (h : status.refuses = true) :
    finish p seq code check true (refuse y status detail) y.time =
      sent (refusedAt p seq code status detail y) p seq code check status detail [] := by
  simp [finish, refuse, h, After.act, sent, sendResponse, compose, refusedAt, PortRec.noteRefusal, responseFlags_flagsAt]

/-- An accepted request that its block carries out. -/
theorem completes_of {s : State} {p : Port} {r : Request} {seq : Byte} {payload : List Byte} {y : State} {status : Status}
    {detail : Word16} {out : List Byte} (h : Accepts s p r seq payload)
    (e : handle r p payload (heard p s) = { state := y, status, detail, payload := out, after := .nothing })
    (hs : status.refuses = false) : Completes s p r seq payload y status detail out := by
  rw [Completes, exec_accepts h, e, finish_done _ _ _ _ _ _ _ _ _ _ hs]

/-- An accepted request that its block refuses. -/
theorem refuses_of {s : State} {p : Port} {r : Request} {seq : Byte} {payload : List Byte} {status : Status}
    {detail : Word16} (h : Accepts s p r seq payload)
    (e : handle r p payload (heard p s) = refuse (heard p s) status detail)
    (hs : status.refuses = true) : Refuses s p r seq payload status detail := by
  rw [Refuses, Completes, exec_accepts h, e]
  exact congrArg _ (finish_refused _ _ _ _ _ _ _ hs)

/-! ## The receive line while the ports do not receive (R117, R155) -/

@[simp] theorem lineHigh_lineHigh (p : Port) (s : State) : (s.lineHigh p).lineHigh p = s.lineHigh p := by
  simp [State.lineHigh, setPort_setPort]

/-- Where the line is at 1 already, that it is changes nothing. -/
theorem lineHigh_of_high (p : Port) (s : State) (h : (s.port p).line = .high) : s.lineHigh p = s := by
  rw [State.lineHigh, ← h]
  exact setPort_port s p

/-- A character then shows that the line is at 1, and is neither taken nor counted. -/
theorem receiveChar_deaf (p : Port) (s : State) (hr : s.portsReceive = false) (b : Byte) :
    receiveChar p s b = s.lineHigh p := by
  rw [receiveChar, if_neg (by simp [hr])]

theorem receiveChars_deaf (p : Port) (chars : List Byte) (hc : chars ≠ []) :
    ∀ s : State, s.portsReceive = false → receiveChars p chars s = s.lineHigh p := by
  induction chars with
  | nil => exact absurd rfl hc
  | cons b rest ih =>
    intro s hr
    rw [receiveChars_cons, receiveChar_deaf p s hr]
    by_cases h : rest = []
    · subst h; rfl
    · rw [ih h (s.lineHigh p) hr, lineHigh_lineHigh]

/-- A character fault then leaves its low period on record, and counts nothing. -/
theorem charFault_deaf (p : Port) (s : State) (hr : s.portsReceive = false) : charFault p s = s.lineFaulty p := by
  simp [charFault, hr]

end Sys2Proof.Machine
end

