-- ==== Sys2Proof/Laws/Tracks.lean ====
section
/-! SUPPORT. What filing an event, one re-evaluation and a release do to tracks, ports and queues. -/

namespace Sys2Proof.Machine

variable (s : State)

/-! ## Ports and tracks through the operations -/

theorem port_congr {s t : State} (h : t.ports = s.ports) (p : Port) : t.port p = s.port p := by simp [State.port, h]
theorem box_congr {s t : State} (h : t.mail = s.mail) (p : Port) : t.box p = s.box p := by simp [State.box, h]
theorem track_congr {s t : State} (h : t.tracks = s.tracks) (i : TrackNo) : t.track i = s.track i := by
  simp [State.track, h]
theorem slot_congr {s t : State} (h : t.store = s.store) (i : SlotNo) : t.slot i = s.slot i := by simp [State.slot, h]
theorem isOpen_congr {s t : State} (h : t.ports = s.ports) (p : Port) : t.isOpen p = s.isOpen p := by
  simp [State.isOpen, port_congr h]
theorem inService_congr {s t : State} (h : t.lifecycle = s.lifecycle) : t.inService = s.inService := by
  simp [State.inService, h]

@[simp] theorem produce_port (ev : Event) (p : Port) : (produce ev s).port p = s.port p := rfl
@[simp] theorem produce_isOpen (ev : Event) (p : Port) : (produce ev s).isOpen p = s.isOpen p := rfl
@[simp] theorem produce_track (ev : Event) (i : TrackNo) : (produce ev s).track i = s.track i := rfl
@[simp] theorem produce_slot (ev : Event) (i : SlotNo) : (produce ev s).slot i = s.slot i := rfl
@[simp] theorem produce_levelOf (ev : Event) (i : TrackNo) : (produce ev s).levelOf i = s.levelOf i := rfl

/-- R120 to R122: a port's box after an event. -/
@[simp] theorem produce_box (ev : Event) (q : Port) :
    (produce ev s).box q = if s.addressed ev q then (s.box q).file (s.recordOf ev) else s.box q := by
  show (Table.build _).look q = _
  rw [Table.look_build]

/-- Filing keeps the subscription. -/
@[simp] theorem file_trackMask (m : Mailbox) (r : Word16 → Record) : (m.file r).trackMask = m.trackMask := by
  unfold Mailbox.file; split <;> rfl
@[simp] theorem file_classes (m : Mailbox) (r : Word16 → Record) : (m.file r).classes = m.classes := by
  unfold Mailbox.file; split <;> rfl

/-- Filing appends. -/
theorem file_queue (m : Mailbox) (r : Word16 → Record) : ∃ added, (m.file r).queue = m.queue ++ added := by
  unfold Mailbox.file
  split
  · exact ⟨_, rfl⟩
  · exact ⟨[], (List.append_nil _).symm⟩

/-! ## One re-evaluation (R71) -/

/-- Two states that agree on what a level is computed from. -/
theorem levelOf_congr {s t : State} (i : TrackNo) (hc : t.counter = s.counter) (ha : t.active = s.active)
    (he : (t.track i).effective = (s.track i).effective) (hh : (t.track i).held = (s.track i).held)
    (hr : (t.track i).runUnref = (s.track i).runUnref) (hs : (t.track i).shift = (s.track i).shift) :
    t.levelOf i = s.levelOf i := by
  simp only [State.levelOf, State.inside, hc, ha, he, hh, hr, hs]

/-- The track's record after it has been evaluated. -/
def evaluated (s : State) (i : TrackNo) : Track :=
  if s.levelOf i = (s.track i).level then s.track i
  else { s.track i with level := s.levelOf i, pin := s.levelOf i && s.oe }

@[simp] theorem evaluated_owner (i : TrackNo) : (evaluated s i).owner = (s.track i).owner := by
  unfold evaluated; split <;> rfl
@[simp] theorem evaluated_orphan (i : TrackNo) : (evaluated s i).orphan = (s.track i).orphan := by
  unfold evaluated; split <;> rfl
@[simp] theorem evaluated_lead (i : TrackNo) : (evaluated s i).lead = (s.track i).lead := by
  unfold evaluated; split <;> rfl
@[simp] theorem evaluated_shift (i : TrackNo) : (evaluated s i).shift = (s.track i).shift := by
  unfold evaluated; split <;> rfl
@[simp] theorem evaluated_runUnref (i : TrackNo) : (evaluated s i).runUnref = (s.track i).runUnref := by
  unfold evaluated; split <;> rfl
@[simp] theorem evaluated_held (i : TrackNo) : (evaluated s i).held = (s.track i).held := by
  unfold evaluated; split <;> rfl
@[simp] theorem evaluated_effective (i : TrackNo) : (evaluated s i).effective = (s.track i).effective := by
  simp [Track.effective]
@[simp] theorem evaluated_level (i : TrackNo) : (evaluated s i).level = s.levelOf i := by
  unfold evaluated; split <;> simp_all

theorem evalTrack_track (c : EdgeCause) (i j : TrackNo) :
    (evalTrack c s i).track j = if j = i then evaluated s i else s.track j := by
  unfold evalTrack evaluated
  split
  · next h => split <;> simp_all
  · simp [track_setTrack]

theorem evalTrack_levelOf (c : EdgeCause) (i j : TrackNo) : (evalTrack c s i).levelOf j = s.levelOf j := by
  apply levelOf_congr <;> first | simp | (rw [evalTrack_track]; split <;> simp_all)

theorem evalTrack_evaluated (c : EdgeCause) (i j : TrackNo) :
    evaluated (evalTrack c s i) j = evaluated s j := by
  by_cases h : j = i
  · subst h
    have hl : ((evalTrack c s j).track j).level = s.levelOf j := by rw [evalTrack_track, if_pos rfl, evaluated_level]
    rw [evaluated, evalTrack_levelOf, if_pos hl.symm, evalTrack_track, if_pos rfl]
  · simp only [evaluated, evalTrack_levelOf, evalTrack_track, if_neg h, evalTrack_oe]

theorem reevaluate_nil (c : EdgeCause) (s : State) : reevaluate c [] s = s := by unfold reevaluate; rfl
theorem reevaluate_cons (c : EdgeCause) (i : TrackNo) (ts : List TrackNo) (s : State) :
    reevaluate c (i :: ts) s = reevaluate c ts (evalTrack c s i) := by unfold reevaluate; rfl

/-- R71: each named track has been evaluated, every other track is as it was. -/
theorem reevaluate_track (c : EdgeCause) (ts : List TrackNo) (s : State) (j : TrackNo) :
    (reevaluate c ts s).track j = if j ∈ ts then evaluated s j else s.track j := by
  induction ts generalizing s with
  | nil => simp [reevaluate_nil]
  | cons i ts ih =>
    rw [reevaluate_cons, ih, evalTrack_evaluated, evalTrack_track]
    by_cases h : j = i <;> by_cases h' : j ∈ ts <;> simp [h, h']

/-- A re-evaluation writes tracks and queues, nothing else. -/
theorem reevaluate_frame (c : EdgeCause) (ts : List TrackNo) (s : State) :
    ∃ tracks mail, reevaluate c ts s = { s with tracks := tracks, mail := mail } := by
  induction ts generalizing s with
  | nil => exact ⟨s.tracks, s.mail, by rw [reevaluate_nil]⟩
  | cons i ts ih =>
    obtain ⟨a, b, h⟩ := ih (evalTrack c s i)
    rw [reevaluate_cons, h]
    unfold evalTrack
    split <;> exact ⟨a, b, rfl⟩

theorem reevaluate_levelOf (c : EdgeCause) (ts : List TrackNo) (s : State) (j : TrackNo) :
    (reevaluate c ts s).levelOf j = s.levelOf j := by
  induction ts generalizing s with
  | nil => rw [reevaluate_nil]
  | cons i ts ih =>
    rw [reevaluate_cons, ih, evalTrack_levelOf]

@[simp] theorem reevaluateAll_track (c : EdgeCause) (j : TrackNo) :
    (reevaluateAll c s).track j = evaluated s j := by
  simp [reevaluateAll, reevaluate_track]

@[simp] theorem reevaluateAll_levelOf (c : EdgeCause) (j : TrackNo) :
    (reevaluateAll c s).levelOf j = s.levelOf j := reevaluate_levelOf c _ s j

@[simp] theorem reevaluate_port (c : EdgeCause) (ts : List TrackNo) (p : Port) :
    (reevaluate c ts s).port p = s.port p := port_congr (by simp) p
@[simp] theorem reevaluateAll_port (c : EdgeCause) (p : Port) : (reevaluateAll c s).port p = s.port p :=
  port_congr (by simp) p
@[simp] theorem reevaluate_isOpen (c : EdgeCause) (ts : List TrackNo) (p : Port) :
    (reevaluate c ts s).isOpen p = s.isOpen p := isOpen_congr (by simp) p
@[simp] theorem reevaluateAll_isOpen (c : EdgeCause) (p : Port) : (reevaluateAll c s).isOpen p = s.isOpen p :=
  isOpen_congr (by simp) p

/-! ## What a box takes from one re-evaluation -/

/-- The EDGE of track `i`, filed in a box whose port is OPEN and subscribes to the track. -/
def fileEdge (s : State) (c : EdgeCause) (q : Port) (m : Mailbox) (i : TrackNo) : Mailbox :=
  if s.addressed (edgeEvent s i (s.levelOf i) c) q then m.file (s.recordOf (edgeEvent s i (s.levelOf i) c)) else m

/-- Does the evaluation change the level of the track? -/
def moves (s : State) (i : TrackNo) : Bool := s.levelOf i ≠ (s.track i).level

theorem evalTrack_box (c : EdgeCause) (i : TrackNo) (q : Port) :
    (evalTrack c s i).box q = if moves s i then fileEdge s c q (s.box q) i else s.box q := by
  unfold evalTrack moves fileEdge
  split
  · next h => simp [h]
  · next h =>
    have hd : decide (s.levelOf i ≠ (s.track i).level) = true := by simpa using h
    rw [if_pos hd, produce_box]
    rfl

theorem addressed_edge_congr {s t : State} (hp : t.ports = s.ports) (q : Port)
    (hm : (t.box q).trackMask = (s.box q).trackMask) (i : TrackNo) (b : Bool) (c : EdgeCause) (u v : State) :
    t.addressed (edgeEvent u i b c) q = s.addressed (edgeEvent v i b c) q := by
  simp only [State.addressed, isOpen_congr hp, Mailbox.subscribes, edgeEvent, hm]
  rfl

/-- R71, R122: the EDGE records of one re-evaluation are filed in the order of the tracks named. -/
theorem reevaluate_box (c : EdgeCause) (q : Port) (ts : List TrackNo) (hn : ts.Nodup) (s : State) :
    (reevaluate c ts s).box q = (ts.filter (moves s)).foldl (fileEdge s c q) (s.box q) := by
  induction ts generalizing s with
  | nil => rw [reevaluate_nil]; rfl
  | cons i ts ih =>
    have hi : i ∉ ts := (List.nodup_cons.mp hn).1
    rw [reevaluate_cons, ih (List.nodup_cons.mp hn).2]
    have hm : ts.filter (moves (evalTrack c s i)) = ts.filter (moves s) := by
      apply List.filter_congr
      intro j hj
      have : j ≠ i := fun e => hi (e ▸ hj)
      simp only [moves, evalTrack_levelOf, evalTrack_track, if_neg this]
    have hmask : ((evalTrack c s i).box q).trackMask = (s.box q).trackMask := by
      rw [evalTrack_box]; split
      · unfold fileEdge; split <;> simp
      · rfl
    have hf : fileEdge (evalTrack c s i) c q = fileEdge s c q := by
      funext m j
      unfold fileEdge
      rw [evalTrack_levelOf, addressed_edge_congr (by simp) q hmask j _ c _ s]
      have : (evalTrack c s i).recordOf (edgeEvent (evalTrack c s i) j (s.levelOf j) c) =
          s.recordOf (edgeEvent s j (s.levelOf j) c) := by
        funext n; simp [State.recordOf, edgeEvent, State.turns24]
      rw [this]
    rw [hm, hf, evalTrack_box, List.filter_cons]
    split <;> rfl

end Sys2Proof.Machine
end

