-- ==== Sys2Proof/Laws/Steps.lean ====
section
/-! SUPPORT. What a property of the state must survive to survive every command: one theorem for all invariants. -/

namespace Sys2Proof.Machine

/-- The property survives each shared operation that a command can reach. A port's own bookkeeping (its line, its receiver, its
counters, its timer, its cache, its transmitter, its refusals) is one case. -/
structure Kept (P : State → Prop) : Prop where
  port : ∀ s p (x : PortRec), x.state = (s.port p).state → x.endCause = (s.port p).endCause → P s → P (s.setPort p x)
  request : ∀ r p payload s, s.lifecycle = .running → stateAdmits (s.port p).state (some r) = true →
    r.lengthOk payload.length = true → P s → P (handle r p payload s).state
  reset : ∀ p c s, s.isOpen p = true → P s → P (portReset p c s)
  close : ∀ s p, s.isOpen p = false → P s → P (s.setPort p (s.port p).closeExpired)
  device : ∀ s, P s → P (deviceReset s)
  load : ∀ straps s, s.lifecycle = .inReset → P s → P (beginLoad straps s)
  loaded : ∀ s, s.lifecycle = .loading → P s → P (endLoad s)
  count : ∀ a b s, s.inService = true → P s → P (sampleCount a b s)
  index : ∀ i s, s.inService = true → P s → P (sampleIndex i s)
  fail : ∀ l s, P s → P (receiversFail l s)
  heal : ∀ l s, P s → P (receiversHeal l s)
  restore : ∀ s, s.holdDue = true → P s → P (restoreSignal s)
  period : ∀ s, s.periodDue = true → P s → P (closeSamplePeriod s)
  deadline : ∀ s, s.commitDue = true → P s → P (withdrawCommit 0 s)
  stored : ∀ b s, P s → P (completeStore b s)
  erased : ∀ s, P s → P (completeErase s)
  outputs : ∀ l s, P s → P (changeOe l s)

variable {P : State → Prop}

/-- Nothing follows the response of a request other than CLOSE. -/
theorem handle_nothing {r : Request} (hr : r ≠ .closePort) (p : Port) (payload : List Byte) (s : State) :
    (handle r p payload s).after = .nothing := by
  cases r <;> simp only [handle]
  case closePort => exact absurd rfl hr
  case identify => rfl
  case openPort => unfold reqOpen; split <;> rfl
  case readStatus => unfold reqReadStatus; split <;> rfl
  case clearFault => unfold reqClearFault; (repeat' split) <;> rfl
  case restart => unfold reqRestart; (repeat' split) <;> rfl
  case claimAxis => unfold reqClaimAxis; (repeat' split) <;> rfl
  case releaseAxis => unfold reqReleaseAxis; split <;> rfl
  case preset => unfold reqPreset; (repeat' split) <;> rfl
  case cancelPreset => unfold reqCancelPreset; (repeat' split) <;> rfl
  case setAxis => unfold reqSetAxis; (repeat' split) <;> rfl
  case readAxis => rfl
  case clearAxisFault => unfold reqClearAxisFault; (repeat' split) <;> rfl
  case claimTracks => unfold reqClaimTracks; simp only []; (repeat' split) <;> rfl
  case releaseTracks => unfold reqReleaseTracks; simp only []; (repeat' split) <;> rfl
  case setTrack => unfold reqSetTrack; (repeat' split) <;> rfl
  case readTracks => rfl
  case openEdit => unfold reqOpenEdit; simp only []; (repeat' split) <;> rfl
  case writeWindows => unfold reqWriteWindows; simp only []; (repeat' split) <;> rfl
  case readWindows => unfold reqReadWindows; (repeat' split) <;> rfl
  case commit => unfold reqCommit; simp only []; (repeat' split) <;> rfl
  case abortEdit => unfold reqAbortEdit; (repeat' split) <;> rfl
  case storeSlot => unfold reqStoreSlot; simp only []; (repeat' split) <;> rfl
  case eraseSlot => unfold reqEraseSlot; (repeat' split) <;> rfl
  case loadSlot => unfold reqLoadSlot; simp only []; (repeat' split) <;> rfl
  case readSlot => unfold reqReadSlot; split <;> rfl
  case subscribe => unfold reqSubscribe; split <;> rfl
  case fetchEvents => unfold reqFetchEvents; simp only []; split <;> rfl

/-- A port reset follows a CLOSE at an OPEN port, the end of the port's record one at an EXPIRED port. -/
theorem handle_after (r : Request) (p : Port) (payload : List Byte) (s : State) :
    ((handle r p payload s).after = .thenReset → (handle r p payload s).state.isOpen p = true) ∧
    ((handle r p payload s).after = .thenClosed → (handle r p payload s).state.isOpen p = false) := by
  by_cases hr : r = .closePort
  · subst hr
    simp only [handle, reqClose]
    cases hs : (s.port p).state
    · simp [refuse]
    · simp [replyOk, State.isOpen, hs]
    · simp [replyOk, State.isOpen, hs]
  · rw [handle_nothing hr]
    exact ⟨fun h => (by cases h), fun h => (by cases h)⟩

/-- A port record that keeps state and end cause. -/
theorem isOpen_setPort {s : State} {p : Port} {x : PortRec} (h : x.state = (s.port p).state) (q : Port) :
    (s.setPort p x).isOpen q = s.isOpen q := by
  simp only [State.isOpen, port_setPort]
  split
  · next e => subst e; rw [h]
  · rfl

theorem sendResponse_isOpen (p : Port) (check : Word16) (r : Response) (s : State) (q : Port) :
    (sendResponse p check r s).isOpen q = s.isOpen q := by
  exact isOpen_setPort (by rfl) q

theorem noteRefusal_isOpen (s : State) (p : Port) (x : Refused) (q : Port) :
    (s.setPort p ((s.port p).noteRefusal x)).isOpen q = s.isOpen q := by
  exact isOpen_setPort (by rfl) q

namespace Kept

variable (k : Kept P)
include k

theorem admitted {p : Port} {code : Byte} {payload : List Byte} {s : State} (hr : s.lifecycle = .running) (h : P s) :
    P (admission p code payload s).state := by
  unfold admission
  split
  · next ha =>
    cases hc : Request.ofCode code with
    | none => exact h
    | some r =>
      rw [hc] at ha
      simp only []
      split
      · next hl => exact k.request r p payload s hr ha hl h
      · exact h
  · exact h

theorem finished {p : Port} {seq code : Byte} {check : Word16} {b : Bool} {y : Reply} {time : Word32} (h : P y.state)
    (ho : y.after = .thenReset → y.state.isOpen p = true) (hc : y.after = .thenClosed → y.state.isOpen p = false) :
    P (finish p seq code check b y time) := by
  have sends : ∀ (z : State) (r : Response), P z → P (sendResponse p check r z) := fun z r hz => k.port z p _ rfl rfl hz
  have recorded : ∀ x : Refused, P (y.state.setPort p ((y.state.port p).noteRefusal x)) := fun x =>
    k.port y.state p _ rfl rfl h
  unfold finish
  simp only []
  cases ha : y.after with
  | nothing =>
    simp only [After.act]
    split
    · exact sends _ _ (recorded _)
    · exact sends _ _ h
  | thenReset =>
    simp only [After.act]
    split
    · refine k.reset _ _ _ ?_ (sends _ _ (recorded _))
      rw [sendResponse_isOpen, noteRefusal_isOpen]
      exact ho ha
    · refine k.reset _ _ _ ?_ (sends _ _ h)
      rw [sendResponse_isOpen]
      exact ho ha
  | thenClosed =>
    simp only [After.act]
    split
    · refine k.close _ _ ?_ (sends _ _ (recorded _))
      rw [sendResponse_isOpen, noteRefusal_isOpen]
      exact hc ha
    · refine k.close _ _ ?_ (sends _ _ h)
      rw [sendResponse_isOpen]
      exact hc ha

theorem framed {p : Port} {seq code : Byte} {payload : List Byte} {check : Word16} {s : State}
    (hr : s.lifecycle = .running) (h : P s) : P (takeFrame p seq code payload check s) := by
  have ht : P (restartTimer p s) := k.port s p _ rfl rfl h
  unfold takeFrame
  simp only []
  split
  · exact k.port _ p _ rfl rfl ht
  · have after : ((admission p code payload (restartTimer p s)).after = .thenReset →
          (admission p code payload (restartTimer p s)).state.isOpen p = true) ∧
        ((admission p code payload (restartTimer p s)).after = .thenClosed →
          (admission p code payload (restartTimer p s)).state.isOpen p = false) := by
      unfold admission
      split
      · split
        · exact ⟨fun h => (by cases h), fun h => (by cases h)⟩
        · split
          · exact handle_after _ _ _ _
          · exact ⟨fun h => (by cases h), fun h => (by cases h)⟩
      · exact ⟨fun h => (by cases h), fun h => (by cases h)⟩
    exact k.finished (k.admitted (s := restartTimer p s) hr ht) after.1 after.2

theorem char {p : Port} {s : State} {b : Byte} (h : P s) : P (receiveChar p s b) := by
  have lined : P (s.lineHigh p) := k.port s p _ rfl rfl h
  unfold receiveChar
  split
  · next hr =>
    have hrun : s.lifecycle = .running := by simpa [State.portsReceive] using hr
    split
    · unfold charHunting
      split
      · split <;> exact k.port _ p _ rfl rfl lined
      · exact lined
    · unfold charReceiving
      split
      · exact k.port _ p _ rfl rfl lined
      · exact k.port _ p _ rfl rfl lined
      · unfold judgeFrame
        split
        · exact k.framed hrun (k.port _ p _ rfl rfl lined)
        · exact k.port _ p _ rfl rfl lined
    · unfold charSkipping
      split <;> exact k.port _ p _ rfl rfl lined
  · exact lined

theorem chars {p : Port} {cs : List Byte} {s : State} (h : P s) : P (receiveChars p cs s) := by
  rw [receiveChars_eq]
  induction cs generalizing s with
  | nil => exact h
  | cons b cs ih => exact ih (k.char h)

theorem silent {p : Port} {s : State} (h : P s) : P (silence p s) := by
  unfold silence
  split
  · split
    · exact h
    · exact k.port _ p _ rfl rfl h
    · exact k.port _ p _ rfl rfl h
  · exact h

theorem faulty {p : Port} {s : State} (h : P s) : P (charFault p s) := by
  have low : P (s.lineFaulty p) := k.port s p _ rfl rfl h
  unfold charFault
  split
  · split <;> exact k.port _ p _ rfl rfl low
  · exact low

theorem broken {p : Port} {s : State} (h : P s) : P (takeBreak p s) := by
  have once : ∀ z : State, P z → P (breakOnce p z) := by
    intro z hz
    refine k.port _ p _ rfl rfl ?_
    unfold breakAt
    split
    · next hs => exact k.reset _ _ _ (by simp [State.isOpen, hs]) hz
    · next hs => exact k.close _ _ (by simp [State.isOpen, hs]) hz
    · next hs => exact k.close _ _ (by simp [State.isOpen, hs]) hz
  unfold takeBreak
  split
  · split
    · exact h
    · exact once _ h
    · exact once _ (k.faulty h)
  · exact k.port s p _ rfl rfl h

theorem sampled {a b i : Bool} {s : State} (h : P s) : P (sampleCountFirst a b i s) ∧ P (sampleIndexFirst a b i s) := by
  have hc : ∀ a b (z : State), z.inService = true → (sampleCount a b z).inService = true := fun a b z hz => by
    rw [inService_congr (sampleCount_lifecycle z a b), hz]
  have hi : ∀ i (z : State), z.inService = true → (sampleIndex i z).inService = true := fun i z hz => by
    rw [inService_congr (sampleIndex_lifecycle z i), hz]
  unfold sampleCountFirst sampleIndexFirst
  split
  · next hs =>
    exact ⟨k.index _ _ (hc _ _ _ hs) (k.count _ _ _ hs h), k.count _ _ _ (hi _ _ hs) (k.index _ _ hs h)⟩
  · exact ⟨h, h⟩

/-- A property that survives the shared operations survives every command. -/
theorem exec {c : Instr} {s t : State} (h : P s) (e : exec c s = .next t) : P t := by
  have given : ∀ {x : State}, Host.Outcome.next x = (Host.Outcome.next t : Host.Outcome State Fault Refusal) → x = t :=
    fun e => by injection e
  cases c
  case restartDeviceReset =>
    have := given e
    subst this
    split
    · split
      · exact k.device _ h
      · exact h
    · exact h
  case resetInput => exact given e ▸ k.device _ h
  case lossOfPower => exact given e ▸ k.device _ h
  case powerUpLoad straps =>
    have := given e
    subst this
    split
    · next hl => exact k.load _ _ hl h
    · exact h
  case powerUpLoadEnd =>
    have := given e
    subst this
    split
    · next hl => exact k.loaded _ hl h
    · exact h
  case gapLimitExceeded p cs => exact given e ▸ k.silent (k.chars h)
  case characterFault p cs => exact given e ▸ k.faulty (k.chars h)
  case lineBreak p => exact given e ▸ k.broken h
  case responseComplete p => exact given e ▸ k.port s p _ rfl rfl h
  case supervisionExpiry p =>
    have := given e
    subst this
    split
    · next hd =>
      have open_ : s.isOpen p = true := by simp only [State.supervisionDue, Bool.and_eq_true] at hd; exact hd.1.1
      exact k.reset _ _ _ open_ h
    · exact h
  case countArrival a b i => exact given e ▸ (k.sampled h).1
  case countError a b i => exact given e ▸ (k.sampled h).1
  case decoderSampleWithoutCount a b i => exact given e ▸ (k.sampled h).1
  case indexEdge a b i => exact given e ▸ (k.sampled h).2
  case receiverFault l => exact given e ▸ k.fail _ _ h
  case receiverHealthy l => exact given e ▸ k.heal _ _ h
  case signalRestored =>
    have := given e
    subst this
    split
    · next hd => exact k.restore _ hd h
    · exact h
  case periodEnd =>
    have := given e
    subst this
    split
    · next hd => exact k.period _ hd h
    · exact h
  case commitTimeout =>
    have := given e
    subst this
    split
    · next hd => exact k.deadline _ hd h
    · exact h
  case storeCompletion b => exact given e ▸ k.stored _ _ h
  case eraseCompletion => exact given e ▸ k.erased _ h
  case oeChange l => exact given e ▸ k.outputs _ _ h
  all_goals exact given e ▸ k.chars h

/-- A property that survives the shared operations, the passing of time and a change of the queue survives every step. -/
theorem step {s t : State} (queue : ∀ (s : State) l, P s → P { s with pending := l })
    (time : ∀ (s : State) x, s.lifecycle ≠ .inReset → P s → P (s.setTime x)) (h : P s) (e : step s = .next t) : P t := by
  unfold Machine.step stepQueue at e
  split at e
  · unfold tick at e
    split at e
    · exact k.exec h e
    · injection e with e
      subst e
      unfold advanceTime
      split
      · exact h
      · next hl => exact time _ _ hl h
  · exact k.exec (queue _ _ h) e

end Kept

end Sys2Proof.Machine
end

