-- ==== Sys2Proof/Laws/Store.lean ====
section
/-! SUPPORT. The search for the highest generation, once for STORE-SLOT and for the boot candidate. -/

namespace Sys2Proof.Machine

/-- Slot `i` is VALID with an image that `f` picks. -/
def Picked (slots : Table 4 Slot) (f : Image → Bool) (i : SlotNo) (g : Image) : Prop :=
  slots.look i = .valid g ∧ f g = true

theorem validImage_some {x : Slot} {g : Image} : x.validImage = some g ↔ x = .valid g := by
  cases x <;> simp [Slot.validImage]

/-- The search over a prefix of the slots. -/
def HighestOf (slots : Table 4 Slot) (f : Image → Bool) (l : List SlotNo) : Option BootRecord → Prop
  | none => ∀ i ∈ l, ∀ g, ¬ Picked slots f i g
  | some b =>
    b.slot ∈ l ∧ (∃ g, Picked slots f b.slot g ∧ b.generation = g.generation) ∧
    ∀ i ∈ l, ∀ g, Picked slots f i g →
      g.generation.toNat ≤ b.generation.toNat ∧ (i < b.slot → g.generation.toNat < b.generation.toNat)

/-- One slot of the search. -/
def highestStep (slots : Table 4 Slot) (f : Image → Bool) (best : Option BootRecord) (i : SlotNo) : Option BootRecord :=
  match (slots.look i).validImage with
  | some g =>
    if f g && best.all (fun b => b.generation.toNat < g.generation.toNat) then
      some { slot := i, generation := g.generation }
    else best
  | none => best

theorem highest_eq (slots : Table 4 Slot) (f : Image → Bool) :
    highest slots f = (Table.numbers 4).foldl (highestStep slots f) none := rfl

theorem highestStep_of {slots : Table 4 Slot} {f : Image → Bool} {l : List SlotNo} {best : Option BootRecord} {i : SlotNo}
    (h : HighestOf slots f l best) (hl : ∀ j ∈ l, j < i) : HighestOf slots f (l ++ [i]) (highestStep slots f best i) := by
  have same : (∀ g, ¬ Picked slots f i g) → HighestOf slots f (l ++ [i]) best := by
    intro hn
    cases best with
    | none =>
      intro j hj g hg
      rcases List.mem_append.mp hj with hj | hj
      · exact h j hj g hg
      · simp at hj; subst hj; exact hn g hg
    | some b =>
      refine ⟨List.mem_append_left _ h.1, h.2.1, fun j hj g hg => ?_⟩
      rcases List.mem_append.mp hj with hj | hj
      · exact h.2.2 j hj g hg
      · simp at hj; subst hj; exact absurd hg (hn g)
  unfold highestStep
  cases hv : (slots.look i).validImage with
  | none =>
    refine same fun g hg => ?_
    rw [validImage_some.mpr hg.1] at hv
    simp at hv
  | some g =>
    have hg := validImage_some.mp hv
    have uniq : ∀ k, Picked slots f i k → k = g := fun k hk => by
      have := hk.1
      rw [hg] at this
      simpa using this.symm
    simp only []
    by_cases hf : f g = true
    · cases best with
      | none =>
        rw [if_pos (by simp [hf])]
        refine ⟨by simp, ⟨g, ⟨hg, hf⟩, rfl⟩, fun j hj k hk => ?_⟩
        rcases List.mem_append.mp hj with hj | hj
        · exact absurd hk (h j hj k)
        · simp at hj; subst hj; rw [uniq k hk]; simp
      | some b =>
        by_cases hlt : b.generation.toNat < g.generation.toNat
        · rw [if_pos (by simp [hf, hlt])]
          refine ⟨by simp, ⟨g, ⟨hg, hf⟩, rfl⟩, fun j hj k hk => ?_⟩
          rcases List.mem_append.mp hj with hj | hj
          · have := (h.2.2 j hj k hk).1
            simp only
            omega
          · simp at hj; subst hj; rw [uniq k hk]; simp
        · rw [if_neg (by simp [hlt])]
          refine ⟨List.mem_append_left _ h.1, h.2.1, fun j hj k hk => ?_⟩
          rcases List.mem_append.mp hj with hj | hj
          · exact h.2.2 j hj k hk
          · simp at hj; subst hj
            rw [uniq k hk]
            have := hl _ h.1
            exact ⟨by omega, fun hi => absurd (Fin.lt_def.mp this) (Nat.lt_asymm (Fin.lt_def.mp hi))⟩
    · rw [if_neg (by simp [hf])]
      exact same fun k hk => hf (uniq k hk ▸ hk.2)

/-- R104, R105, R115: the search finds the highest generation among the VALID slots that `f` picks, of equal ones the lowest
slot, and nothing only where nothing is picked. -/
theorem highest_of (slots : Table 4 Slot) (f : Image → Bool) : HighestOf slots f (Table.numbers 4) (highest slots f) := by
  have key : ∀ (l done : List SlotNo) (best : Option BootRecord), HighestOf slots f done best →
      (done ++ l).Pairwise (· < ·) → HighestOf slots f (done ++ l) (l.foldl (highestStep slots f) best) := by
    intro l
    induction l with
    | nil => intro done best h _; simpa using h
    | cons i l ih =>
      intro done best h hp
      have h1 := highestStep_of (i := i) h (fun j hj => (List.pairwise_append.mp hp).2.2 j hj i (by simp))
      have := ih (done ++ [i]) _ h1 (by simpa using hp)
      simpa using this
  have := key (Table.numbers 4) [] none (by intro i hi; simp at hi) (by decide)
  simpa [highest_eq] using this

theorem highest_none {slots : Table 4 Slot} {f : Image → Bool} (h : highest slots f = none) (i : SlotNo) (g : Image) :
    ¬ Picked slots f i g := by
  have := highest_of slots f
  rw [h] at this
  exact this i (Table.mem_numbers i) g

theorem highest_some {slots : Table 4 Slot} {f : Image → Bool} {b : BootRecord} (h : highest slots f = some b) :
    (∃ g, Picked slots f b.slot g ∧ b.generation = g.generation) ∧
    ∀ i g, Picked slots f i g →
      g.generation.toNat ≤ b.generation.toNat ∧ (i < b.slot → g.generation.toNat < b.generation.toNat) := by
  have := highest_of slots f
  rw [h] at this
  exact ⟨this.2.1, fun i g hg => this.2.2 i (Table.mem_numbers i) g hg⟩

end Sys2Proof.Machine
end

