-- ==== Sys2Proof/Laws/Windows.lean ====
section
/-! SUPPORT. The validity check's index, the pool's arithmetic, the operand codes as the requests read them, and the lowest
parameter out of range. -/

namespace Sys2Proof.Machine

/-! ## The validity check (R43) -/

theorem checkFrom_index (m : Nat) (l : Option (Window × Window)) (i : Nat) (ws : List Window) (r : Reason) (j : Nat)
    (h : checkFrom m l i ws = some (r, j)) : j < i + ws.length := by
  induction ws generalizing l i with
  | nil => simp [checkFrom] at h
  | cons w ws ih =>
    unfold checkFrom at h
    split at h
    · simp_all
    split at h
    · simp_all
    split at h
    · simp_all
    split at h
    · have := ih _ _ h; simp at *; omega
    split at h
    · simp_all
    split at h
    · simp_all
    · have := ih _ _ h; simp at *; omega

/-- The index of the check's answer fits in a byte. -/
theorem checkList_index {m : Nat} {ws : List Window} {r : Reason} {j : Nat} (h : checkList m ws = some (r, j)) :
    j ≤ 12 := by
  unfold checkList at h
  split at h
  · simp at h; omega
  · have := checkFrom_index _ _ _ _ _ _ h; omega

/-- A list that is valid on one ring is valid on every ring that its edges lie on. -/
theorem checkFrom_modulus {m n : Nat} (l : Option (Window × Window)) (i : Nat) (ws : List Window)
    (h : checkFrom m l i ws = none) (hw : ∀ w ∈ ws, w.on < n ∧ w.off < n) : checkFrom n l i ws = none := by
  induction ws generalizing l i with
  | nil => rfl
  | cons w ws ih =>
    have hn := hw w (by simp)
    unfold checkFrom at h ⊢
    simp only [show ¬ n ≤ w.on by omega, show ¬ n ≤ w.off by omega, decide_false, Bool.or_self, Bool.false_eq_true,
      if_false]
    split at h
    · simp at h
    have hw' : ∀ v ∈ ws, v.on < n ∧ v.off < n := fun v hv => hw v (by simp [hv])
    split at h
    · simp at h
    next h1 =>
    rw [if_neg h1]
    split at h
    · simp at h
    next h2 =>
    rw [if_neg h2]
    split at h
    · exact ih _ _ h hw'
    · split at h
      · simp at h
      next h3 =>
      split at h
      · simp at h
      next h4 =>
      simp only [if_neg h3, if_neg h4]
      exact ih _ _ h hw'

theorem checkList_modulus {m n : Nat} {ws : List Window} (h : checkList m ws = none)
    (hw : ∀ w ∈ ws, w.on < n ∧ w.off < n) : checkList n ws = none := by
  unfold checkList at h ⊢
  split at h
  · simp at h
  next hl => rw [if_neg hl]; exact checkFrom_modulus _ _ _ h hw

@[simp] theorem checkList_nil (m : Nat) : checkList m [] = none := rfl

/-! ## The pool (R47, R83) -/

theorem sum_put (b : Table 16 (List Window)) (t : TrackNo) (ws : List Window) (l : List TrackNo) (hn : l.Nodup)
    (hm : t ∈ l) :
    (l.map fun i => ((b.put t ws).look i).length).sum + (b.look t).length =
      (l.map fun i => (b.look i).length).sum + ws.length := by
  induction l with
  | nil => simp at hm
  | cons i l ih =>
    rw [List.nodup_cons] at hn
    by_cases hi : i = t
    · subst hi
      have : (l.map fun j => ((b.put i ws).look j).length) = l.map fun j => (b.look j).length := by
        apply List.map_congr_left
        intro j hj
        rw [Table.look_put_ne]; rintro rfl; exact hn.1 hj
      simp [this]; omega
    · have := ih hn.2 (by simpa [Ne.symm hi] using hm)
      have h2 : (b.put t ws).look i = b.look i := Table.look_put_ne _ _ hi
      simp only [List.map_cons, List.sum_cons, h2]; omega

theorem look_le_total (b : Table 16 (List Window)) (t : TrackNo) : (b.look t).length ≤ totalOf b := by
  have h := sum_put b t [] _ (Table.numbers_nodup 16) (Table.mem_numbers t)
  simp at h
  unfold totalOf
  omega

/-- R83 check 6: the total after one list is replaced. -/
theorem totalOf_put (b : Table 16 (List Window)) (t : TrackNo) (ws : List Window) :
    totalOf (b.put t ws) = totalOf b - (b.look t).length + ws.length := by
  have h1 := sum_put b t ws _ (Table.numbers_nodup 16) (Table.mem_numbers t)
  have h2 := look_le_total b t
  unfold totalOf at *
  omega

/-! ## Operand codes -/

theorem boolOfCode_none {n : Nat} (h : 1 < n) : boolOfCode n = none := by
  match n, h with
  | _ + 2, _ => rfl

theorem boolOfCode_some {n : Nat} (h : n ≤ 1) : ∃ b, boolOfCode n = some b ∧ (b = true ↔ n = 1) := by
  match n, h with
  | 0, _ => exact ⟨_, rfl, by simp⟩
  | 1, _ => exact ⟨_, rfl, by simp⟩

theorem trackOfCode_none {n : Nat} (h : 15 < n) : trackOfCode n = none := by simp [trackOfCode]; omega
theorem trackOfCode_some {n : Nat} {t : TrackNo} (h : t.val = n) : trackOfCode n = some t := by
  subst h; simp [trackOfCode]
theorem slotOfCode_none {n : Nat} (h : 3 < n) : slotOfCode n = none := by simp [slotOfCode]; omega
theorem slotOfCode_some {n : Nat} {i : SlotNo} (h : i.val = n) : slotOfCode n = some i := by subst h; simp [slotOfCode]

theorem boolOfCode_isSome (n : Nat) : (boolOfCode n).isSome = decide (n ≤ 1) := by
  match n with
  | 0 | 1 => rfl
  | n + 2 => simp [boolOfCode]
theorem inputMode_isSome (n : Nat) : (InputMode.ofCode n).isSome = decide (n ≤ 4) := by
  match n with
  | 0 | 1 | 2 | 3 | 4 => rfl
  | n + 5 => simp [InputMode.ofCode]
theorem mode_isSome (n : Nat) : (Mode.ofCode n).isSome = decide (n ≤ 3) := by
  match n with
  | 0 | 1 | 2 | 3 => rfl
  | n + 4 => simp [Mode.ofCode]
theorem orphan_isSome (n : Nat) : (Orphan.ofCode n).isSome = decide (n = 0 ∨ n = 2 ∨ n = 3) := by
  match n with
  | 0 | 1 | 2 | 3 => rfl
  | n + 4 => simp [Orphan.ofCode]
theorem condition_isSome (n : Nat) : (conditionOfCode n).isSome = decide (n ≤ 3) := by
  match n with
  | 0 | 1 | 2 | 3 => rfl
  | n + 4 => simp [conditionOfCode]
theorem swapDir_isSome (n : Nat) : (SwapDir.ofCode n).isSome = decide (n ≤ 2) := by
  match n with
  | 0 | 1 | 2 => rfl
  | n + 3 => simp [SwapDir.ofCode]

/-! ## The lowest parameter out of range (R159) -/

theorem firstBad_some {l : List Bool} {i : Nat} (h : l[i]? = some false) (low : ∀ j, j < i → l[j]? = some true) :
    firstBad l = some i := by
  unfold firstBad
  rw [List.findIdx?_eq_some_iff_getElem]
  obtain ⟨hl, he⟩ := List.getElem?_eq_some_iff.mp h
  refine ⟨hl, by simp [he], fun j hj => ?_⟩
  obtain ⟨_, hj'⟩ := List.getElem?_eq_some_iff.mp (low j hj)
  simp [hj']

theorem firstBad_none {l : List Bool} (h : ∀ j, j < l.length → l[j]? = some true) : firstBad l = none := by
  unfold firstBad
  rw [List.findIdx?_eq_none_iff]
  intro x hx
  obtain ⟨j, hj, e⟩ := List.mem_iff_getElem.mp hx
  have := h j hj
  rw [List.getElem?_eq_getElem hj, e] at this
  simpa using this

end Sys2Proof.Machine
end

