-- ==== Sys2Proof/Tests/Slice0.lean ====
section
/-! SUPPORT. The model's own tests: what `wellFormed` refuses, the specification's worked values, a small run of each command,
and for every statement with hypotheses a state and operands that meet them (the `witness_` theorems, a clause each). -/

namespace Sys2Proof.Tests

open Sys2Proof.Machine

set_option Elab.async false

/-! ## Small states -/

/-- In service, every port CLOSED, nothing held. -/
def idle : State :=
  { State.reset with
    lifecycle := .running
    counter := { Counter.reset with resyncCount := false, resyncIndex := false } }

def openRec : PortRec := { PortRec.reset with state := .opened, endCause := .none }

def expiredRec : PortRec :=
  { PortRec.reset with
    state := .expired, endCause := .expiry, refusals := 1
    refusal := some { status := .range, code := 2, detail := 0, seq := 1, time := 0 } }

/-- P0 and P1 OPEN, P2 EXPIRED, P3 CLOSED. -/
def live : State := (((idle.setPort 0 openRec).setPort 1 openRec).setPort 2 expiredRec)

/-- `live`, with P0 holding the axis claim. -/
def claimed : State := { live with counter := { live.counter with claim := some 0 } }

/-- `claimed`, with an AT_INDEX preset of P0 armed. -/
def armed : State := { claimed with counter := { claimed.counter with armed := some { value := 100, port := 0 } } }

/-- `claimed` and REFERENCED. -/
def referenced : State := { claimed with counter := { claimed.counter with ref := .referenced } }

def recordedFault : FaultRecord := { kind := .countError, time := 3, p := 4, turns := 5, seen := 1 }

/-- `claimed`, FAULTED by a count error that is on record. -/
def faulted : State :=
  { claimed with
    counter := { claimed.counter with ref := .faulted }
    monitor := { claimed.monitor with faultRecord := some recordedFault } }

def lossy : State :=
  { claimed with monitor := { claimed.monitor with signalLoss := true, lossTouched := true, inFault := ⟨true, false, false⟩ } }

/-- T5 owned by P0 in CAM, T6 by P1; the others free. -/
def owned : State :=
  (claimed.setTrack 5 { Track.reset with owner := some { port := 0, mode := .cam } }).setTrack 6
    { Track.reset with owner := some { port := 1, mode := .hold } }

def oneList (t : TrackNo) (ws : List Window) : Bank := { lists := Bank.empty.lists.put t ws, tag := 20 }

def editing (pc : Option PendingCommit) : EditSession := { holder := 0, shadow := oneList 5 [⟨100, 300⟩], pending := pc }

def commitOf (c : Condition) : PendingCommit :=
  { condition := c, position := 1, direction := .up, timeout := 0, accepted := 0, deadline := none, tag := 21 }

/-- P0 edits; T5's shadow list differs from its active list. -/
def drafting : State := { owned with session := some (editing none) }

/-- P0's commit is pending, to swap at a condition. -/
def waiting (c : Condition) : State := { owned with session := some (editing (some (commitOf c))) }

/-- P0's commit is pending with a timeout of 1 ms, and `us` µs have passed since it was accepted. -/
def timed (us : Nat) : State :=
  { owned with
    time := BitVec.ofNat 32 us
    session := some (editing (some { commitOf .atRest with timeout := 1, deadline := some 1000 })) }

/-- Twelve windows on the ring. -/
def twelve : List Window := (List.range 12).map fun i => ⟨10 * i, 10 * i + 5⟩

/-- Eight lists of twelve windows each, less one window in the last: 95 windows. -/
def almostFull : Bank :=
  { lists := Table.build fun t => if t.val < 7 then twelve else if t.val = 7 then twelve.take 11 else [], tag := 0 }

def crowded : State := { owned with session := some { holder := 0, shadow := almostFull, pending := none } }

def image (generation : Word32) (boot : Bool) : Image :=
  { generation, boot, tag := 44, modulus := 4096, inputMode := .quadX2, invert := true, samplePeriod := 5, overspeedLimit := 9,
    driftTolerance := 3, settings := Vector.replicate 16 { orphan := .cam, lead := 1500, runUnref := true },
    lists := (oneList 2 [⟨4000, 96⟩]).lists }

/-- Slot 0 as given, the others EMPTY. -/
def stocked (x : Slot) : State := { owned with store := { owned.store with slots := owned.store.slots.put 0 x } }

def storing : State :=
  { owned with
    store :=
      { owned.store with
        slots := owned.store.slots.put 1 (.writing (image 9 true)), op := some { kind := .store, slot := 1, requester := some 0 } } }

def erasing : State :=
  { owned with
    store :=
      { owned.store with
        slots := owned.store.slots.put 2 .erasing, op := some { kind := .erase, slot := 2, requester := none } } }

def oneRecord : Record := { seq := 7, kind := .edge, subject := 3, detail := 1, time := 2, position := 3, extra := 4 }

/-- P0 is subscribed to everything and has `n` records queued. -/
def subscribed (n : Nat) : State :=
  owned.setBox 0
    { queue := List.replicate n oneRecord, nextSeq := 0xFFFF, lost := if n = 32 then 0xFFFF else 0, trackMask := 0xFFFF
      classes := 0x1F }

/-- The receiver of P0 is in this phase. -/
def phased (x : Phase) : State := live.setPhase 0 x

def anyResponse : Response := { seq := 9, code := 1, status := .ok, detail := 0, flags := 0, payload := [] }

/-- P0 is sending a response. -/
def sending : State := live.setPort 0 { openRec with tx := some anyResponse }

def supervisedRec (start : Option Word32) : PortRec := { openRec with supervision := 10, timer := start }

/-- P0 is supervised for 10 ms since time 0, and `us` µs have passed. -/
def supervised (us : Nat) : State := { owned.setPort 0 (supervisedRec (some 0)) with time := BitVec.ofNat 32 us }

/-! ## Observations -/

/-- The state after a command. -/
def after (c : Instr) (s : State) : State :=
  match exec c s with
  | .next t => t
  | _ => s

/-- The status, detail and payload with which port `p` answers. -/
def answer (p : Port) (c : Instr) (s : State) : Option (Status × Word16 × List Byte) :=
  ((after c s).port p).tx.map fun x => (x.status, x.detail, x.payload)

/-- Status and detail alone. -/
def verdict (p : Port) (c : Instr) (s : State) : Option (Status × Word16) :=
  (answer p c s).map fun x => (x.1, x.2.1)

/-- The kinds of the records queued at port `p`. -/
def kinds (s : State) (p : Port) : List EventKind := (s.box p).queue.map Record.kind

/-! ## What `wellFormed` refuses -/

theorem smoke_payload_of_161_bytes : (Instr.preset 0 1 (List.replicate 161 0)).wellFormed = false := by decide +kernel
theorem smoke_payload_of_160_bytes : (Instr.preset 0 1 (List.replicate 160 0)).wellFormed = true := by decide +kernel
theorem smoke_replay_payload : (Instr.replay 0 1 0x12 (List.replicate 161 0)).wellFormed = false := by decide +kernel
theorem smoke_unknown_payload : (Instr.unknownRequest 0 1 0x60 (List.replicate 161 0)).wellFormed = false := by decide +kernel
theorem smoke_unknown_code_that_is_known : (Instr.unknownRequest 0 1 0x12 []).wellFormed = false := by decide +kernel
theorem smoke_unknown_code : (Instr.unknownRequest 0 1 0x60 []).wellFormed = true := by decide +kernel
theorem smoke_check_payload : (Instr.checkError 0 1 0x12 (List.replicate 161 0) 0).wellFormed = false := by decide +kernel
theorem smoke_check_that_is_right : (Instr.checkError 0 1 1 [] (requestCheck 1 1 [])).wellFormed = false := by decide +kernel
theorem smoke_check_that_is_wrong : (Instr.checkError 0 1 1 [] (requestCheck 1 1 [] + 1)).wellFormed = true := by decide +kernel
theorem smoke_length_of_160 : (Instr.frameError 0 1 1 160).wellFormed = false := by decide +kernel
theorem smoke_length_of_161 : (Instr.frameError 0 1 1 161).wellFormed = true := by decide +kernel
theorem smoke_no_receiver_fails : (Instr.receiverFault ⟨false, false, false⟩).wellFormed = false := by decide +kernel
theorem smoke_no_receiver_heals : (Instr.receiverHealthy ⟨false, false, false⟩).wellFormed = false := by decide +kernel
theorem smoke_one_receiver : (Instr.receiverFault ⟨false, false, true⟩).wellFormed = true := by decide +kernel
theorem smoke_no_frame_end : (Instr.overrunFrameEnd 0 []).wellFormed = false := by decide +kernel

/-! ## The specification's own values -/

/-- R171. -/
theorem test_crc_of_123456789 : crc [0x31, 0x32, 0x33, 0x34, 0x35, 0x36, 0x37, 0x38, 0x39] = 0x29B1 := by decide +kernel

/-- R172: the example frame (100, 600) for T6 with seq 9. -/
theorem test_example_frame :
    (requestChars 9 0x31 (byteOf 6 :: windowBytes [⟨100, 600⟩])).take 11 =
      [0xD1, 0x09, 0x31, 0x07, 0x06, 0x00, 0x00, 0x64, 0x00, 0x02, 0x58] := by decide +kernel

/-- Table 2-2: period length, count and touched; speed and rest. -/
theorem test_table_2_2 :
    ([(10, 37, false), (10, -3, false), (10, 0, false), (3, 7, false), (3, -7, false), (1000, 1, false), (10, 0, true)].map
      fun (x : Nat × Int × Bool) =>
        let m := { Monitor.reset with periodLength := x.1, periodCount := x.2.1, lossTouched := x.2.2 }.closePeriod
        (m.speed, m.rest)) =
      [(3700, false), (-300, false), (0, true), (2333, false), (-2333, false), (1, false), (0, false)] := by decide +kernel

/-- Table 3-1: the first and last position covered, and the positions beside them. -/
theorem test_table_3_1 :
    ([999, 1000, 1199, 1200].map (Window.covers ⟨1000, 1200⟩) = [false, true, true, false]) ∧
    ([0, 1, 4095].map (Window.covers ⟨0, 1⟩) = [true, false, false]) ∧
    ([3999, 4000, 4095, 0, 95, 96].map (Window.covers ⟨4000, 96⟩) = [false, true, true, true, true, false]) ∧
    ([3999, 4000, 4095, 0].map (Window.covers ⟨4000, 0⟩) = [false, true, true, false]) ∧
    ([0, 1, 4095].map (Window.covers ⟨1, 0⟩) = [false, true, true]) := by decide +kernel

/-- Table 3-3. -/
theorem test_table_3_3 :
    leadShift 3700 2000 = 7 ∧ leadShift (-300) 5000 = -1 ∧ leadShift 2333 20000 = 46 ∧ leadShift 1000 999 = 0 ∧
    leadShift (-1000) 999 = 0 ∧ leadShift 10000000 20000 = 200000 := by decide +kernel

/-- The validity checks of 3.7. -/
theorem test_worked_validity_checks :
    checkList 4096 [⟨100, 300⟩, ⟨300, 500⟩, ⟨3900, 50⟩] = none ∧
    checkList 4096 [⟨100, 300⟩, ⟨250, 400⟩] = some (.overlap, 1) ∧
    checkList 4096 [⟨100, 300⟩, ⟨90, 95⟩] = some (.order, 1) ∧
    checkList 4096 [⟨3900, 50⟩, ⟨100, 300⟩] = some (.wrapNotLast, 0) ∧
    checkList 4096 [⟨100, 300⟩, ⟨3900, 150⟩] = some (.overlap, 1) ∧
    checkList 4096 [⟨100, 4096⟩] = some (.edgeRange, 0) ∧
    checkList 4096 [⟨100, 300⟩, ⟨500, 500⟩, ⟨200, 250⟩] = some (.zeroWidth, 1) ∧
    checkList 4096 [⟨100, 300⟩, ⟨350, 0⟩] = none ∧
    checkList 4096 [⟨0, 2048⟩, ⟨2048, 0⟩] = none ∧
    checkList 2048 [⟨100, 300⟩, ⟨3900, 150⟩] = some (.edgeRange, 1) ∧
    checkList 4096 twelve = none ∧ checkList 4096 (twelve ++ [⟨200, 201⟩]) = some (.tooMany, 12) := by decide +kernel

/-- The track of 3.7 with a lead: the evaluation position and the inside test, step by step. -/
theorem test_track_stopping_in_a_window :
    ([(980, 10), (990, 10), (1190, 10), (1192, 10), (1192, 8), (1192, 0)].map fun (x : Nat × Int) =>
      (evalPosition x.1 x.2 4096, listCovers [⟨1000, 1200⟩] (evalPosition x.1 x.2 4096))) =
      [(990, false), (1000, true), (1200, false), (1202, false), (1200, false), (1192, true)] := by decide +kernel

/-- R178: the fields of a STORE_DONE of generation 261, and turns of −1. -/
theorem test_event_fields :
    be24 (storeDoneEvent 1 261 none).detail = [0, 0, 0] ∧ be24 (storeDoneEvent 1 261 none).extra = [0, 1, 5] ∧
    be24 ({ idle with counter := { idle.counter with turns := -1 } } : State).turns24 = [0xFF, 0xFF, 0xFF] := by decide +kernel

/-- 4.8: the two claims on shared tracks, each row's answer. P0 and P1 stand for the example's P1 and P2. -/
theorem test_two_claims_on_shared_tracks :
    let s0 := live.setTrack 4 { Track.reset with owner := some { port := 0, mode := .cam } }
    let s1 := after (.responseComplete 1) (after (.claimTracks 1 1 [0x00, 0x60]) s0)
    let s3 := after (.responseComplete 0) (after (.claimTracks 0 1 [0x00, 0xC0]) s1)
    let s4 := after (.responseComplete 1) (after (.claimTracks 1 3 [0x00, 0xA0]) s3)
    verdict 1 (.claimTracks 1 1 [0x00, 0x60]) s0 = some (.ok, 2) ∧
    verdict 1 (.claimTracks 1 2 [0x00, 0x90]) s1 = some (.owned, 4) ∧
    verdict 0 (.claimTracks 0 1 [0x00, 0xC0]) s1 = some (.owned, 6) ∧
    verdict 1 (.claimTracks 1 3 [0x00, 0xA0]) s3 = some (.ok, 1) ∧
    verdict 1 (.releaseTracks 1 4 [0x00, 0x30]) s4 = some (.notOwner, 4) ∧
    (s4.track 7).ownerPort = some 1 ∧ (s4.track 4).ownerPort = some 0 := by decide +kernel

/-- 11.3, step 1: the highest generation 8 gives 9; 0xFFFFFFFF is the last. -/
theorem test_generations :
    nextGeneration Store.reset.slots = 1 ∧
    nextGeneration ((Store.reset.slots.put 0 (.valid (image 7 true))).put 2 (.valid (image 8 false))) = 9 ∧
    bootCandidate ((Store.reset.slots.put 0 (.valid (image 7 true))).put 2 (.valid (image 8 false))) =
      some { slot := 0, generation := 7 } := by decide +kernel

/-! ## The queue, the clock, the events -/

theorem witness_StepTakesTheFrontCommand :
    { idle with pending := [Instr.lossOfPower, .periodEnd] }.pending = .lossOfPower :: [.periodEnd] := rfl

/-- Which of the things of the tick are due, in the model's order, the ports each (what each says is in Laws/Clock). -/
def due (s : State) : List Bool :=
  [restartDue s, s.holdDue, s.supervisionDue 0, s.supervisionDue 1, s.supervisionDue 2, s.supervisionDue 3, s.commitDue,
   s.periodDue]

/-- The signal has been whole again for 1 ms. -/
def restoring : State := { live with time := 1000, monitor := { live.monitor with signalLoss := true, restoreHold := some 0 } }

/-- P0 and P1 have been silent for their 10 ms. -/
def silentPorts : State := (supervised 10000).setPort 1 (supervisedRec (some 0))

/-- A state for each of the five clauses, each at the moment its condition begins to hold. -/
theorem witness_IdleStepIsOneTickOfTheClock :
    due { live with lifecycle := .restarting 0 } = [true, false, false, false, false, false, false, false] ∧
    due restoring = [false, true, false, false, false, false, false, false] ∧
    due silentPorts = [false, false, true, true, false, false, false, true] ∧
    due (timed 1000) = [false, false, false, false, false, false, true, false] ∧
    due { live with time := 10000 } = [false, false, false, false, false, false, false, true] := by decide +kernel

theorem witness_IdleStepIsOneTickOfTheClock_nothingDue :
    ((due { live with time := 9999 }).any id = false ∧ live.lifecycle ≠ .inReset) ∧
    ((due State.reset).any id = false ∧ State.reset.lifecycle = .inReset) ∧
    [live, restoring, silentPorts, timed 1000, State.reset].all (fun s => s.pending.isEmpty) = true := by decide +kernel

/-- Log 4: the fixed order in which what is due is taken. -/
theorem test_due_order :
    dueCommand { live with lifecycle := .restarting 0, time := 10000 } = some .restartDeviceReset ∧
    dueCommand { supervised 10000 with monitor := { Monitor.reset with signalLoss := true, restoreHold := some 0 } } =
      some .signalRestored ∧
    dueCommand (supervised 10000) = some (.supervisionExpiry 0) ∧ dueCommand (supervised 9999) = none ∧
    dueCommand (timed 1000) = some .commitTimeout ∧ dueCommand (timed 999) = none := by decide +kernel

theorem witness_RequestFramesAreReadBack :
    progress (1 :: 2 :: byteOf 0 :: ([] ++ be16 0x1234)) = .complete 1 2 [] 0x1234 ∧
    progress (1 :: 2 :: byteOf 160 :: (List.replicate 160 3 ++ be16 0x1234)) = .complete 1 2 (List.replicate 160 3) 0x1234 ∧
    Request.ofCode 0x51 = some .fetchEvents ∧
    (∀ w ∈ [(⟨0, 0xFFFFFF⟩ : Window)], w.on < 2 ^ 24 ∧ w.off < 2 ^ 24) ∧
    windowsOf (byteOf 15 :: windowBytes [⟨0, 0xFFFFFF⟩]) = [⟨0, 0xFFFFFF⟩] := by decide +kernel

/-- 13 windows; and lists of at most 12 in which each test of Table 3-2 is the first that fails. -/
theorem witness_ValidityCheckPassesTheValidLists :
    12 < (List.replicate 13 (⟨0, 1⟩ : Window)).length ∧
    ([[⟨100, 4096⟩], [⟨1, 2⟩, ⟨3, 3⟩], [⟨3900, 50⟩, ⟨100, 300⟩], [⟨100, 300⟩, ⟨100, 400⟩], [⟨100, 300⟩, ⟨299, 400⟩],
        [⟨100, 300⟩, ⟨3900, 101⟩]].map fun ws => (decide (ws.length ≤ 12), checkList 4096 ws)) =
      [(true, some (.edgeRange, 0)), (true, some (.zeroWidth, 1)), (true, some (.wrapNotLast, 0)), (true, some (.order, 1)),
        (true, some (.overlap, 1)), (true, some (.overlap, 1))] := by decide +kernel

/-- The smallest ring of the law, and the last position before the wrap. -/
theorem witness_EvaluationPositionLiesOnTheRing :
    (0 < 1 ∧ 0 < 1 ∧ evalPosition 0 5 1 = 0) ∧ (4095 < 4096 ∧ evalPosition 4095 (3 * 4096) 4096 = 4095) := by decide +kernel

def anyEvent : Event := { kind := .swapDone, subject := 0, detail := 21, extra := 0, direct := some 1 }

theorem witness_EventIsFiledOrLost :
    (subscribed 0).isOpen 3 = false ∧
    ((subscribed 0).isOpen 1 = true ∧ { anyEvent with direct := none }.direct ≠ some 1 ∧
      ((subscribed 0).box 1).subscribes anyEvent = false) ∧
    ((subscribed 31).isOpen 0 = true ∧ ((subscribed 31).box 0).subscribes anyEvent = true ∧
      ((subscribed 31).box 0).queue.length < 32) ∧
    ((subscribed 31).isOpen 1 = true ∧ anyEvent.direct = some 1 ∧ ((subscribed 31).box 1).queue.length < 32) ∧
    ((subscribed 32).isOpen 0 = true ∧ ((subscribed 32).box 0).subscribes anyEvent = true ∧
      32 ≤ ((subscribed 32).box 0).queue.length) := by decide +kernel

/-- The 32nd record is queued and its number 0xFFFF is followed by 0; the next record is lost. -/
theorem test_queue_fills_and_loses :
    ((produce anyEvent (subscribed 31)).box 0).queue.length = 32 ∧ ((produce anyEvent (subscribed 31)).box 0).nextSeq = 0 ∧
    ((produce anyEvent (subscribed 32)).box 0).queue = ((subscribed 32).box 0).queue ∧
    ((produce anyEvent (subscribed 32)).box 0).lost = 0xFFFF ∧ kinds (produce anyEvent (subscribed 0)) 1 = [.swapDone] := by
  decide +kernel

/-- Table 4-2, a state for each clause: T5 ON; T15 OFF; T6 in HOLD; T5 in CAM on a REFERENCED axis, with run-unreferenced on an
UNREFERENCED one, and without it; and a list of two tracks. -/
theorem witness_ReevaluationSetsEveryLevel :
    let cam := fun (run : Bool) => owned.setTrack 5 { Track.reset with owner := some { port := 0, mode := .cam }, runUnref := run }
    ((owned.setTrack 5 { Track.reset with owner := some { port := 0, mode := .on } }).track 5).effective = .on ∧
    (owned.track 15).effective = .off ∧ (owned.track 6).effective = .hold ∧
    (({ owned with counter := { owned.counter with ref := .referenced } }.track 5).effective = .cam ∧
      { owned with counter := { owned.counter with ref := .referenced } }.counter.ref = .referenced) ∧
    (((cam true).track 5).effective = .cam ∧ ((cam true).track 5).runUnref = true) ∧
    (((cam false).track 5).effective = .cam ∧ ((cam false).track 5).runUnref = false ∧ (cam false).counter.ref ≠ .referenced) ∧
    [(0 : TrackNo), 15].Nodup := by decide +kernel

/-- R171, R141: a frame whose check bytes are its own, and one whose are not. -/
theorem witness_CheckValueIsTheCrcOfR171 :
    requestCheck 1 1 [] = crc ([1, 1, byteOf 0] ++ []) ∧ requestCheck 1 1 [] + 1 ≠ crc ([1, 1, byteOf 0] ++ []) := by decide +kernel

/-! ## Reset and the load -/

theorem witness_DeviceResetKeepsOnlyTheSlots :
    let s := { sending with lifecycle := .restarting 0 }
    (s.lifecycle = .restarting 0 ∧ (s.port 0).tx ≠ none) ∧
    ({ live with lifecycle := .restarting 0 }.lifecycle = .restarting 0 ∧ (live.port 0).tx = none) := by decide +kernel

theorem witness_DeviceResetKeepsOnlyTheSlots_running : ∀ p, live.lifecycle ≠ .restarting p := by decide +kernel

/-- R113: the slot in writing is lost with the reset. -/
theorem test_reset_interrupts_the_store :
    (after .resetInput storing).slot 1 = .damaged .torn ∧ (after .lossOfPower erasing).slot 2 = .damaged .torn ∧
    (after .resetInput storing).store.op = none := by decide +kernel

/-- Before the load: slots 0 and 1 whole with one generation, slot 2 not whole, slot 3 empty. -/
def unloaded : State :=
  { State.reset with
    store :=
      { Store.reset with
        slots :=
          ((Store.reset.slots.put 0 (.valid (image 7 true))).put 1 (.valid (image 7 true))).put 2
            (.damaged (.image (image 8 true) false)) } }

/-- R103, Table 6-2: images at the ends of their ranges, and one beyond each end. -/
theorem test_whole_contents :
    let g := image 1 false
    [{ g with samplePeriod := 1000, overspeedLimit := 16000000, driftTolerance := 255 }, { g with modulus := 16777216 },
      { g with generation := 0 }, { g with modulus := 1 }, { g with modulus := 16777217 }, { g with modulus := 4000 },
      { g with samplePeriod := 0 }, { g with samplePeriod := 1001 }, { g with overspeedLimit := 16000001 },
      { g with driftTolerance := 256 },
      { g with settings := g.settings.put 15 { orphan := .off, lead := 20001, runUnref := false } }].map Image.wellMade =
      [true, true, false, false, false, false, false, false, false, false, false] := by decide +kernel

theorem witness_PowerUpLoadJudgesAndSelects :
    live.lifecycle ≠ .inReset ∧ unloaded.lifecycle = .inReset ∧
    (unloaded.slot 3).contents = none ∧
    ((unloaded.slot 2).contents = some (.image (image 8 true) false) ∧ (Contents.image (image 8 true) false).whole = none) ∧
    ((unloaded.slot 0).contents = some (.image (image 7 true) true) ∧
      (Contents.image (image 7 true) true).whole = some (image 7 true)) ∧
    ((unloaded.slot 1).contents = some (.image (image 7 true) true) ∧ (0 : SlotNo) < 1) := by decide +kernel

theorem test_load_judges_the_slots :
    let t := after (.powerUpLoad 2) unloaded
    t.slot 0 = .valid (image 7 true) ∧ t.slot 1 = .damaged (.image (image 7 true) true) ∧ (t.slot 2).code = 2 ∧
    t.slot 3 = .empty ∧ t.store.boot = some { slot := 0, generation := 7 } ∧ t.lineRate = 2 := by decide +kernel

def loading : State := after (.powerUpLoad 0) unloaded

theorem witness_PowerUpLoadEndAppliesTheImage :
    live.lifecycle ≠ .loading ∧
    (loading.lifecycle = .loading ∧ loading.store.boot = some { slot := 0, generation := 7 } ∧
      loading.slot 0 = .valid (image 7 true)) ∧
    ((after (.powerUpLoad 0) State.reset).lifecycle = .loading ∧ (after (.powerUpLoad 0) State.reset).store.boot = none) := by
  decide +kernel

/-- R59: T2 runs CAM unreferenced in a wrapping window at 0, and its line is driven under OE. -/
theorem test_load_end_sets_levels_and_pins :
    let t := after .powerUpLoadEnd { loading with oe := true }
    (t.track 2).level = true ∧ (t.track 2).pin = true ∧ (t.track 3).level = false ∧ t.counter.inputMode = .quadX2 ∧
    t.monitor.periodLength = 5 ∧ t.active.tag = 44 ∧ t.lifecycle = .running := by decide +kernel

/-! ## The encoder -/

/-- `s` with the lines A and B at 0, ready for a sample. -/
def meeting (pc : PendingCommit) (p : Nat) : State :=
  { owned with session := some (editing (some pc)), counter := { owned.counter with p := p } }

theorem witness_CountArrivalStepsTheRing :
    (live.inService = true ∧ live.counter.resyncCount = false ∧ live.monitor.signalLoss = false ∧
      decode live.counter.inputMode live.counter.lineA live.counter.lineB true false = .count .up ∧
      live.counter.invert = false ∧ live.session = none) ∧
    decode live.counter.inputMode live.counter.lineA live.counter.lineB false true = .count .down ∧
    ((meeting (commitOf .atPosition) 0).session = some (editing (some (commitOf .atPosition))) ∧
      (commitOf .atPosition).position = (meeting (commitOf .atPosition) 0).counter.p + 1 ∧
      (commitOf .atPosition).direction = .up) := by decide +kernel

/-- R8: both ends of the ring, and no wrap beside them. -/
theorem test_ring_wraps_both_ways :
    let at_ := fun (p : Nat) => { live with counter := { live.counter with p := p } }
    ((after (.countArrival true false false) (at_ 4095)).counter.p = 0 ∧
      (after (.countArrival true false false) (at_ 4095)).counter.turns = 1) ∧
    ((after (.countArrival true false false) (at_ 4094)).counter.p = 4095 ∧
      (after (.countArrival true false false) (at_ 4094)).counter.turns = 0) ∧
    ((after (.countArrival false true false) (at_ 0)).counter.p = 4095 ∧
      (after (.countArrival false true false) (at_ 0)).counter.turns = -1) ∧
    (after (.countArrival false true false) (at_ 1)).monitor.periodCount = -1 := by decide +kernel

theorem witness_SamplesWithoutACount :
    State.reset.inService = false ∧
    (live.inService = true ∧ { live.counter with resyncCount := true }.resyncCount = true ∧ lossy.monitor.signalLoss = true ∧
      decode live.counter.inputMode live.counter.lineA live.counter.lineB false false = .nothing) ∧
    (live.counter.resyncCount = false ∧ live.monitor.signalLoss = false ∧
      decode live.counter.inputMode live.counter.lineA live.counter.lineB true true = .error) := by decide +kernel

theorem test_count_error_lowers_the_reference :
    let t := after (.countError true true false) referenced
    t.counter.ref = .faulted ∧ t.monitor.faultRecord.map FaultRecord.kind = some .countError ∧ t.counter.p = 0 ∧
    after (.decoderSampleWithoutCount true true false) lossy =
      { lossy with counter := { lossy.counter with lineA := true, lineB := true } } := by decide +kernel

def drifting (p : Nat) (session : Option EditSession) : State :=
  { referenced with
    counter := { referenced.counter with p := p, r := some 0 }
    monitor := { referenced.monitor with driftTolerance := 4 }
    session := session }

theorem witness_IndexEdgeByTheCountersState :
    (live.inService = true ∧ { live.counter with resyncIndex := true }.resyncIndex = true ∧ lossy.monitor.signalLoss = true) ∧
    (live.counter.resyncIndex = false ∧ live.monitor.signalLoss = false ∧ live.counter.lineIndex = false) ∧
    (armed.counter.resyncIndex = false ∧ armed.monitor.signalLoss = false ∧ armed.counter.lineIndex = false ∧
      armed.counter.armed = some { value := 100, port := 0 }) ∧
    (referenced.counter.armed = none ∧ referenced.counter.ref = .referenced ∧ referenced.counter.r = none) ∧
    ((drifting 4 none).counter.armed = none ∧ (drifting 4 none).counter.r = some 0 ∧
      ¬ (drifting 4 none).monitor.driftTolerance < circularDistance 4 0 4096) ∧
    ((drifting 5 none).counter.armed = none ∧ (drifting 5 none).counter.ref = .referenced ∧
      0 < (drifting 5 none).monitor.driftTolerance ∧ (drifting 5 none).counter.r = some 0 ∧
      (drifting 5 none).monitor.driftTolerance < circularDistance 5 0 4096 ∧ (drifting 5 none).session = none) ∧
    ((drifting 4091 (some (editing (some (commitOf .atIndex))))).monitor.driftTolerance < circularDistance 4091 0 4096 ∧
      (commitOf .atIndex).condition = .atIndex) ∧
    (0 < 4096 ∧ 4095 < 4096 ∧ circularDistance 0 4095 4096 = 1 ∧ circularDistance 2048 0 4096 = 2048) := by decide +kernel

theorem test_index_edges :
    ((after (.indexEdge false false true) armed).counter.p = 100 ∧
      (after (.indexEdge false false true) armed).counter.r = some 100 ∧
      kinds (after (.indexEdge false false true) armed) 0 = [.presetDone]) ∧
    (after (.indexEdge false false true) (drifting 4 none)).counter.ref = .referenced ∧
    (after (.indexEdge false false true) (drifting 5 none)).counter.ref = .faulted ∧
    (after (.indexEdge false false true) (waiting .atIndex)).active = { oneList 5 [⟨100, 300⟩] with tag := 21 } := by
  decide +kernel

/-- All lines healthy, and the restore hold running since 0. -/
def healing (us : Nat) : State :=
  { lossy with
    time := BitVec.ofNat 32 us
    monitor := { lossy.monitor with inFault := ⟨false, false, false⟩, restoreHold := some 0 } }

theorem witness_SignalLossFollowsTheReceivers :
    State.reset.inService = false ∧
    (lossy.inService = true ∧ lossy.monitor.signalLoss = true ∧ (⟨false, false, true⟩ : LineSet) ≠ ⟨false, false, false⟩) ∧
    ((⟨lossy.monitor.inFault.a && ! false, false, false⟩ : LineSet) ≠ ⟨false, false, false⟩ ∧
      (healing 0).monitor.restoreHold ≠ none) ∧
    ((⟨lossy.monitor.inFault.a && ! true, false, false⟩ : LineSet) = ⟨false, false, false⟩ ∧
      lossy.monitor.restoreHold = none) ∧
    (live.inService = true ∧ live.monitor.signalLoss = false ∧ live.monitor.inFault = ⟨false, false, false⟩) ∧
    ((healing 1000).monitor.signalLoss = true ∧ (healing 1000).monitor.inFault = ⟨false, false, false⟩ ∧
      (healing 1000).monitor.restoreHold = some 0 ∧ 1000 ≤ ((healing 1000).time - 0).toNat) ∧
    ((healing 999).monitor.restoreHold = some 0 ∧ ((healing 999).time - 0).toNat < 1000) := by decide +kernel

theorem test_signal_loss_and_restoration :
    (after (.receiverFault ⟨true, false, false⟩) referenced).counter.ref = .faulted ∧
    (after (.receiverHealthy ⟨true, false, false⟩) lossy).monitor.restoreHold = some 0 ∧
    (after .signalRestored (healing 1000)).monitor.signalLoss = false ∧ after .signalRestored (healing 999) = healing 999 := by
  decide +kernel

/-- `us` µs into a first period of 10 ms, 37 counts taken, T5 with a lead. -/
def running (us : Nat) : State :=
  { (live.setTrack 5 { Track.reset with lead := 2000 }) with
    time := BitVec.ofNat 32 us, monitor := { Monitor.reset with periodCount := 37 } }

/-- An overspeed judgement of 3700 counts/s against this limit. -/
def fast (limit : Nat) (already : Bool) : State :=
  { live with monitor := { Monitor.reset with speed := 3700, overspeedLimit := limit, overspeed := already } }

theorem witness_PeriodEndGivesSpeedAndRest :
    State.reset.inService = false ∧
    ((running 9999).time - (running 9999).monitor.periodStart).toNat < (running 9999).monitor.periodLength * 1000 ∧
    ((running 10000).inService = true ∧
      (running 10000).monitor.periodLength * 1000 ≤ ((running 10000).time - (running 10000).monitor.periodStart).toNat) ∧
    ((waiting .atRest).session = some (editing (some (commitOf .atRest))) ∧ (commitOf .atRest).condition = .atRest ∧
      (waiting .atRest).monitor.rest = true) ∧
    (running 0).session = none ∧
    ((fast 3700 false).monitor.speed.natAbs ≤ (fast 3700 false).monitor.overspeedLimit) ∧
    ((fast 3699 true).monitor.overspeedLimit ≠ 0 ∧
      (fast 3699 true).monitor.overspeedLimit < (fast 3699 true).monitor.speed.natAbs ∧ (fast 3699 true).monitor.overspeed = true ∧
      (fast 3699 false).monitor.overspeed = false) := by decide +kernel

theorem test_period_end :
    let t := after .periodEnd (running 10000)
    t.monitor.speed = 3700 ∧ t.monitor.rest = false ∧ (t.track 5).shift = 7 ∧ t.monitor.periodStart = 10000 ∧
    after .periodEnd (running 9999) = running 9999 := by decide +kernel

/-! ## OE and the store's completions -/

theorem witness_OeChangeGatesThePins :
    live.oe = false ∧ (live.oe ≠ true ∧ live.inService = true) ∧ (State.reset.oe ≠ true ∧ State.reset.inService = false) := by
  decide +kernel

theorem test_oe_moves_the_pin_only :
    let s := live.setTrack 3 { Track.reset with level := true }
    ((after (.oeChange true) s).track 3).pin = true ∧ ((after (.oeChange true) s).track 3).level = true ∧
    ((after (.oeChange true) s).track 4).pin = false := by decide +kernel

theorem witness_StoreOperationsComplete :
    (storing.store.op = some { kind := .store, slot := 1, requester := some 0 } ∧ storing.slot 1 = .writing (image 9 true) ∧
      (Contents.image (image 9 true) true).whole = some (image 9 true)) ∧
    (Contents.image (image 9 true) false).whole = none ∧
    erasing.store.op = some { kind := .erase, slot := 2, requester := none } ∧ owned.store.op = none := by decide +kernel

theorem test_store_completions :
    ((after (.storeCompletion true) storing).slot 1 = .valid (image 9 true) ∧
      kinds (after (.storeCompletion true) storing) 0 = [.storeDone]) ∧
    (after (.storeCompletion false) storing).slot 1 = .damaged (.image (image 9 true) false) ∧
    (after .eraseCompletion erasing).slot 2 = .empty ∧ after .eraseCompletion storing = storing := by decide +kernel

/-! ## Reception -/

/-- P0 has answered READ-AXIS with seq 1 and has sent the response. -/
def answered : State := after (.responseComplete 0) (after (.readAxis 0 1 []) live)

theorem witness_ReplayIsAnsweredFromTheCache :
    Hears answered 0 ∧ ([] : List Byte).length ≤ 160 ∧
    (answered.cached 0 1 0x15 (requestCheck 1 0x15 [])).isSome = true ∧ Request.readAxis.code = 0x15 ∧
    answered.cached 0 2 0x15 (requestCheck 2 0x15 []) = none := by decide +kernel

theorem test_replay_sends_the_same_response :
    ((after (.readAxis 0 1 []) answered).port 0).replays = 1 ∧
    ((after (.replay 0 1 0x15 []) answered).port 0).tx = ((after (.readAxis 0 1 []) live).port 0).tx ∧
    ((after (.readAxis 0 2 []) answered).port 0).replays = 0 := by decide +kernel

theorem witness_AdmissionRefusesBeforeAnyBlock :
    (Hears live 3 ∧ Fresh live 3 1 0x15 [] ∧ live.isOpen 3 = false ∧ (live.port 3).state ≠ .expired ∧
      (0x15 : Byte) ≠ Request.code .identify ∧ (0x15 : Byte) ≠ Request.code .openPort) ∧
    (Hears live 2 ∧ Fresh live 2 1 0x04 [] ∧ live.isOpen 2 = false ∧ (live.port 2).state = .expired ∧
      (0x04 : Byte) ≠ Request.code .closePort ∧ (0x04 : Byte) ≠ Request.code .openPort) ∧
    (Hears live 0 ∧ Fresh live 0 1 0x00 [] ∧ live.isOpen 0 = true ∧ Request.ofCode 0x00 = none ∧
      Request.all.all fun r => r.code ≠ 0x00) ∧
    (Hears live 0 ∧ ([0] : List Byte).length ≤ 160 ∧ Fresh live 0 1 (Request.code .claimAxis) [0] ∧ live.isOpen 0 = true ∧
      Request.fixedLength .claimAxis = some 0 ∧ ([0] : List Byte).length ≠ 0) ∧
    (Hears live 3 ∧ Fresh live 3 1 (Request.code .openPort) [0] ∧ live.isOpen 3 = false ∧
      Request.fixedLength .openPort = some 4 ∧ ([0] : List Byte).length ≠ 4) ∧
    (Hears live 2 ∧ Fresh live 2 1 (Request.code .closePort) [0] ∧ live.isOpen 2 = false ∧ (live.port 2).state = .expired ∧
      Fresh live 2 1 (Request.code .identify) [0] ∧ Request.fixedLength .closePort = some 0 ∧
      Request.fixedLength .identify = some 0) ∧
    (Fresh live 0 1 (Request.code .writeWindows) (List.replicate 79 0) ∧
      (List.range 13).all (fun n => (List.replicate 79 (0 : Byte)).length ≠ 1 + 6 * n)) := by decide +kernel

theorem test_admission :
    verdict 3 (.readAxis 3 1 []) live = some (.notOpen, 0) ∧ verdict 2 (.readStatus 2 1 [0]) live = some (.notOpen, 0) ∧
    verdict 3 (.closePort 3 1 []) live = some (.notOpen, 0) ∧ verdict 3 (.unknownRequest 3 1 0x60 []) live = some (.notOpen, 0) ∧
    verdict 0 (.unknownRequest 0 1 0x60 [1]) live = some (.unknownRequest, 0x60) ∧
    verdict 2 (.closePort 2 1 [0]) live = some (.length, 0) ∧ verdict 3 (.openPort 3 1 [0]) live = some (.length, 4) ∧
    verdict 0 (.preset 0 1 [1]) live = some (.length, 4) ∧ verdict 0 (.writeWindows 0 1 []) live = some (.length, 0xFFFF) := by
  decide +kernel

theorem witness_RefusalChangesNothingElse :
    Accepts live 0 .preset 1 [0, 0, 1, 0] ∧ (handle .preset 0 [0, 0, 1, 0] (heard 0 live)).status.refuses = true := by
  decide +kernel

theorem witness_BadFramesAreDiscardedAndCounted :
    Hears live 0 ∧ ((0 : Word16) ≠ requestCheck 1 1 []) ∧ 160 < (161 : Byte).toNat := by decide +kernel

theorem word_ne_succ (w : Word16) : w + 1 ≠ w := by bv_omega

/-- The longest payload, with a check value that is not its own. -/
theorem witness_BadFramesAreDiscardedAndCounted_longest :
    (List.replicate 160 (0 : Byte)).length ≤ 160 ∧
    requestCheck 1 1 (List.replicate 160 0) + 1 ≠ requestCheck 1 1 (List.replicate 160 0) :=
  ⟨by simp, word_ne_succ _⟩

theorem test_bad_frames :
    ((after (.checkError 0 1 1 [] 0) live).port 0).checkErrors = 1 ∧ ((after (.frameError 0 1 1 161) live).port 0).frameErrors = 1 ∧
    ((after (.frameError 0 1 1 255) (live.setPort 0 { openRec with frameErrors := 0xFFFF })).port 0).frameErrors = 0xFFFF := by
  decide +kernel

/-- P0's RESTART has been admitted: no port receives any more. -/
def restarting : State := { live with lifecycle := .restarting 0 }

/-- A clause for each receiver phase after no characters and after a delimiter, and two with no port receiving. -/
theorem witness_GapAndCharacterFaultByPhase :
    ((receiveChars 0 [0xD1] State.reset).portsReceive = false ∧ (receiveChars 0 [0xD1] restarting).portsReceive = false) ∧
    ((receiveChars 0 [] live).portsReceive = true ∧ ((receiveChars 0 [] live).port 0).phase = .hunting) ∧
    ((receiveChars 0 [0xD1] live).portsReceive = true ∧ ((receiveChars 0 [0xD1] live).port 0).phase = .receiving []) ∧
    ((receiveChars 0 [0xD1] sending).portsReceive = true ∧ ((receiveChars 0 [0xD1] sending).port 0).phase = .skipping []) := by
  decide +kernel

/-- A clause for the characters of each phase, at a port with and without a low period on record. -/
theorem witness_GapAndCharacterFaultByPhase_characters :
    (restarting.portsReceive = false ∧ (restarting.port 0).line = .high ∧ loading.portsReceive = false) ∧
    (live.portsReceive = true ∧ (live.port 0).phase = .hunting ∧ (live.port 0).tx = none ∧ (0xD0 : Byte) ≠ 0xD1) ∧
    ((phased (.receiving [1, 2])).portsReceive = true ∧ ((phased (.receiving [1, 2])).port 0).phase = .receiving [1, 2] ∧
      ((phased (.skipping [1, 2])).port 0).phase = .skipping [1, 2] ∧ progress ([1, 2] ++ [160]) = .more) := by
  decide +kernel

/-- R117, R155: what arrives while no port receives is not counted; R139: nor is a character that is no delimiter. -/
theorem test_characters_unheard :
    receiveChars 0 [0xD1, 1, 1, 0] restarting = restarting ∧ receiveChars 0 [0xD1] loading = loading ∧
    receiveChars 0 [0xD0, 0xD2] live = live ∧ ((after (.characterFault 0 []) loading).port 0).frameErrors = 0 ∧
    receiveChars 0 [0] (after (.characterFault 0 []) loading) = loading := by decide +kernel

theorem test_gap_and_character_fault :
    ((after (.gapLimitExceeded 0 []) live).port 0).frameErrors = 0 ∧
    ((after (.gapLimitExceeded 0 [0xD1, 1]) live).port 0).frameErrors = 1 ∧
    ((after (.gapLimitExceeded 0 [0xD1, 1]) sending).port 0).frameErrors = 0 ∧
    ((after (.characterFault 0 []) live).port 0).frameErrors = 1 ∧ ((after (.characterFault 0 []) live).port 0).line = .lowFault ∧
    ((after (.characterFault 0 [0xD1]) sending).port 0).frameErrors = 0 := by decide +kernel

theorem witness_OverrunFrameIsCountedOnceAndSkipped :
    (sending.portsReceive = true ∧ (sending.port 0).phase = .hunting ∧ (sending.port 0).tx ≠ none) ∧
    ((phased (.skipping [1, 2])).portsReceive = true ∧ ((phased (.skipping [1, 2])).port 0).phase = .skipping [1, 2] ∧
      (∀ n, n < ([0, 0xAA] : List Byte).length → progress ([1, 2] ++ ([0, 0xAA] : List Byte).take (n + 1)) = .more) ∧
      progress ([1, 2] ++ [0, 0xAA] ++ [0xBB]) ≠ .more) ∧
    (((phased (.skipping [1, 2])).port 0).phase = .skipping [1, 2] ∧ progress ([1, 2] ++ [] ++ [161]) = .badLength) := by
  decide +kernel

theorem test_overrun :
    ((after (.overrun 0) sending).port 0).overruns = 1 ∧ ((after (.overrun 0) sending).port 0).phase = .skipping [] ∧
    ((after (.overrunFrameEnd 0 [1, 1, 0, 0xAA, 0xBB]) (after (.overrun 0) sending)).port 0).phase = .hunting ∧
    ((after (.responseComplete 0) sending).port 0).tx = none := by decide +kernel

/-- A character with each stop bit, a transmitter that is IDLE and one that is SENDING. -/
theorem witness_RequestFramesAreReadBack_line :
    ((⟨0xD1, true⟩ : LineCharacter).stop = true ∧ (⟨0xD1, false⟩ : LineCharacter).stop = false) ∧
    (live.port 0).tx = none ∧ (sending.port 0).tx = some anyResponse := by decide +kernel

/-- R137: a delimiter and a byte on a line that was idle, a fault, a line held low, and a character after it; R138: one fault. -/
theorem test_line_bits :
    readLine ([true, true] ++ lineBits [0xD1, 0x0F] ++ [true]) = [⟨0xD1, true⟩, ⟨0x0F, true⟩] ∧
    readLine (List.replicate 25 false ++ true :: lineBits [0x80]) = [⟨0, false⟩, ⟨0x80, true⟩] ∧
    (receiveLine 0 (List.replicate 25 false) live).port 0 = (after (.characterFault 0 []) live).port 0 ∧
    ((sending.txBits 0).take 10 = [false, false, true, false, false, true, false, true, true, true] ∧
      live.txLevel 0 3 = true) ∧
    ({ live with lineRate := 3 }).bitRate = 3000000 := by decide +kernel

/-! ## Breaks, supervision, the port reset -/

theorem witness_SupervisionExpiryResetsThePort :
    ((supervised 10000).isOpen 0 = true ∧ ((supervised 10000).port 0).supervision ≠ 0 ∧
      ((supervised 10000).port 0).timer = some 0 ∧
      ((supervised 10000).port 0).supervision * 1000 ≤ ((supervised 10000).time - 0).toNat) ∧
    (live.isOpen 3 = false ∧ (live.port 0).supervision = 0 ∧ (live.port 0).timer = none) ∧
    (((supervised 9999).port 0).timer = some 0 ∧
      ((supervised 9999).time - 0).toNat < ((supervised 9999).port 0).supervision * 1000) := by decide +kernel

/-- R152: the claim and the tracks of P0 are freed, P1's stay; P1 sees nothing it has not subscribed to. -/
theorem test_expiry :
    let t := after (.supervisionExpiry 0) (supervised 10000)
    (t.port 0).state = .expired ∧ t.counter.claim = none ∧ (t.track 5).owner = none ∧ (t.track 6).ownerPort = some 1 ∧
    after (.supervisionExpiry 0) (supervised 9999) = supervised 9999 := by decide +kernel

/-- A port whose own track is in another mode than its orphan HOLD, one with the same mode, and a foreign track. -/
theorem witness_PortResetReleasesEverything :
    (drafting.holdsSession 0 = true ∧ drafting.holdsSession 1 = false ∧ drafting.counter.claim = some 0) ∧
    ((drafting.track 5).ownerPort = some 0 ∧ (drafting.track 6).ownerPort ≠ some 0) ∧
    storing.store.op.map StoreOp.requester = some (some 0) ∧ ((1 : Port) ≠ 0 ∧ drafting.isOpen 3 = false) := by
  decide +kernel

theorem witness_BreakActsOncePerLowPeriod :
    let lined := fun (x : RxLine) (q : Port) => live.setPort q { live.port q with line := x }
    ((lined .lowBreak 0).inService = true ∧ ((lined .lowBreak 0).port 0).line = .lowBreak) ∧
    ((live.port 0).line = .high ∧ live.inService = true) ∧
    (((lined .lowFault 0).port 0).line = .lowFault ∧ (lined .lowFault 0).isOpen 0 = true) ∧
    (((lined .lowFault 3).port 3).line = .lowFault ∧ (lined .lowFault 3).isOpen 3 = false) ∧
    (restarting.inService = true ∧ (restarting.port 0).line = .high) ∧
    (loading.inService = false ∧ loading.lifecycle = .loading ∧ (loading.port 0).state = .closed) := by
  decide +kernel

/-- R117: a low period from before reception adds no frame error, also where the device reset falls into it. -/
theorem test_break_from_before_reception :
    let errors := fun s => ((after (.lineBreak 0) (after .powerUpLoadEnd s)).port 0).frameErrors
    errors (after (.characterFault 0 []) loading) = 0 ∧ errors loading = 1 ∧
    errors (after (.powerUpLoad 0) (after .resetInput (after (.characterFault 0 []) live))) = 0 := by decide +kernel

theorem test_break :
    ((after (.lineBreak 0) live).port 0).state = .closed ∧ ((after (.lineBreak 0) live).port 0).endCause = .lineBreak ∧
    ((after (.lineBreak 2) live).port 2).endCause = .expiry ∧ ((after (.lineBreak 2) live).port 2).refusal = none ∧
    after (.lineBreak 0) (after (.lineBreak 0) live) = after (.lineBreak 0) live := by decide +kernel

/-! ## The requests of the ports -/

theorem witness_IdentifyReportsThePart :
    (Hears live 0 ∧ Fresh live 0 1 (Request.code .identify) []) ∧ (Hears live 3 ∧ Fresh live 3 1 (Request.code .identify) []) := by
  decide +kernel

theorem test_identify :
    (answer 3 (.identify 3 1 []) live).map (fun x => (x.1, x.2.1, x.2.2.take 2, x.2.2.drop 3)) =
      some (.ok, 0, [0x4E, 0x10], [3, 0, 4, 16, 12, 96, 32, 8, 4, 160]) := by decide +kernel

/-- Both ends of the supervision range and 0, at CLOSED and OPEN ports. -/
theorem witness_OpenSetsThePortRecord :
    (Hears live 3 ∧ Fresh live 3 1 (Request.code .openPort) [0, 0, 0, 0]) ∧
    (Hears live 0 ∧ Fresh live 0 1 (Request.code .openPort) [0, 9, 0, 0] ∧ live.isOpen 0 = true) ∧
    (Fresh live 3 1 (Request.code .openPort) [0x27, 0x11, 0, 0] ∧ live.isOpen 3 = false) ∧
    [[0, 0], [0, 10], [0x27, 0x10], [0, 9], [0x27, 0x11]].map (fun pl => supervisionOk (u16 pl 0)) =
      [true, true, true, false, false] := by decide +kernel

theorem test_open :
    answer 3 (.openPort 3 1 [0, 10, 0x12, 0x34]) live = some (.ok, 0, [3, 4]) ∧
    answer 2 (.openPort 2 1 [0, 0, 0, 0]) live = some (.ok, 0, [2, 3]) ∧
    answer 0 (.openPort 0 1 [0, 0, 0, 0]) live = some (.ok, 0, [0, 0]) ∧
    verdict 0 (.openPort 0 1 [0, 9, 0, 0]) live = some (.range, 0) ∧
    ((after (.openPort 3 1 [0, 10, 0x12, 0x34]) live).port 3).tag = 0x1234 := by decide +kernel

theorem witness_CloseResetsAfterItsResponse :
    (Hears live 0 ∧ Fresh live 0 1 (Request.code .closePort) [] ∧ live.isOpen 0 = true) ∧
    (Hears live 2 ∧ Fresh live 2 1 (Request.code .closePort) [] ∧ (live.port 2).state = .expired) := by decide +kernel

theorem test_close :
    verdict 0 (.closePort 0 1 []) owned = some (.ok, 0) ∧ (after (.closePort 0 1 []) owned).counter.claim = none ∧
    ((after (.closePort 0 1 []) owned).port 0).endCause = .closedByRequest ∧
    ((after (.closePort 2 1 []) live).port 2).tx.map Response.flags = some 0x04 ∧
    ((after (.closePort 2 1 []) live).port 2) =
      { expiredRec with
        state := .closed, refusal := none, refusals := 0, tx := ((after (.closePort 2 1 []) live).port 2).tx } := by
  decide +kernel

theorem witness_ReadStatusReportsAndClears :
    (Accepts live 0 .readStatus 1 [0] ∧ u8 [0] 0 = 0) ∧ (Accepts live 0 .readStatus 1 [1] ∧ u8 [1] 0 = 1) ∧
    (Accepts live 0 .readStatus 1 [2] ∧ 1 < u8 [2] 0) := by decide +kernel

theorem test_read_status :
    let s := live.setPort 0 { openRec with checkErrors := 3 }
    verdict 0 (.readStatus 0 1 [1]) s = some (.ok, 0) ∧ ((after (.readStatus 0 1 [1]) s).port 0).checkErrors = 0 ∧
    ((after (.readStatus 0 1 [0]) s).port 0).checkErrors = 3 ∧ verdict 0 (.readStatus 0 1 [2]) s = some (.range, 0) := by
  decide +kernel

/-- P0 with NOT_OWNER on record. -/
def refused : State := after (.responseComplete 0) (after (.cancelPreset 0 1 []) live)

theorem witness_ClearFaultNamesTheRecordedStatus :
    (Hears live 3 ∧ Fresh live 3 1 (Request.code .clearFault) [2] ∧ live.isOpen 3 = false) ∧
    (Accepts live 0 .clearFault 1 [1] ∧ u8 [1] 0 < 2) ∧ (Accepts live 0 .clearFault 1 [18] ∧ 17 < u8 [18] 0) ∧
    (Accepts live 0 .clearFault 1 [2] ∧ 2 ≤ u8 [2] 0 ∧ (live.port 0).refusal = none) ∧
    (Accepts refused 0 .clearFault 2 [6] ∧ (refused.port 0).refusal.map (fun x => x.status.code.toNat) = some (u8 [6] 0)) ∧
    (Accepts refused 0 .clearFault 2 [17] ∧ u8 [17] 0 ≤ 17 ∧
      (refused.port 0).refusal.map (fun x => x.status.code.toNat) ≠ some (u8 [17] 0)) := by decide +kernel

theorem test_clear_fault :
    verdict 0 (.clearFault 0 2 [6]) refused = some (.ok, 1) ∧ verdict 0 (.clearFault 0 2 [17]) refused = some (.stale, 6) ∧
    verdict 0 (.clearFault 0 2 [18]) live = some (.range, 0) := by decide +kernel

theorem witness_RestartWaitsForPortsAndStore :
    (Accepts live 0 .restart 1 [] ∧ live.isOpen 1 = true ∧ (∀ o : Port, o < 1 → o ≠ 0 → live.isOpen o = false)) ∧
    (let s := storing.setPort 1 PortRec.reset
     Accepts s 0 .restart 1 [] ∧ (∀ q : Port, q ≠ 0 → s.isOpen q = false) ∧ s.store.op.isSome = true) ∧
    (let s := live.setPort 1 PortRec.reset
     Accepts s 0 .restart 1 [] ∧ (∀ q : Port, q ≠ 0 → s.isOpen q = false) ∧ s.store.op = none) := by decide +kernel

/-- 11.3, steps 2, 4, 6 and 7. -/
theorem test_restart :
    let alone := live.setPort 1 PortRec.reset
    let admitted := after (.restart 0 1 []) alone
    verdict 0 (.restart 0 1 []) live = some (.inUse, 1) ∧
    verdict 0 (.restart 0 1 []) (storing.setPort 1 PortRec.reset) = some (.storeBusy, 1) ∧
    admitted.lifecycle = .restarting 0 ∧ after .restartDeviceReset admitted = admitted ∧
    (after .restartDeviceReset (after (.responseComplete 0) admitted)).lifecycle = .inReset := by decide +kernel

/-! ## The requests of the axis -/

theorem witness_AxisClaimIsTakenAndReleased :
    (Accepts live 0 .claimAxis 1 [] ∧ live.counter.claim = none) ∧
    (Accepts claimed 0 .claimAxis 1 [] ∧ claimed.counter.claim = some 0) ∧
    (Accepts claimed 1 .claimAxis 1 [] ∧ (0 : Port) ≠ 1) ∧
    (Accepts live 0 .releaseAxis 1 [] ∧ live.counter.claim ≠ some 0) ∧
    (Accepts claimed 0 .releaseAxis 1 [] ∧ claimed.counter.armed = none) ∧
    (Accepts armed 0 .releaseAxis 1 [] ∧ armed.counter.claim = some 0 ∧ armed.counter.armed.isSome = true) ∧
    (Accepts live 0 .cancelPreset 1 [] ∧ Accepts claimed 0 .cancelPreset 1 [] ∧ Accepts armed 0 .cancelPreset 1 []) := by
  decide +kernel

theorem test_axis_claim :
    verdict 0 (.claimAxis 0 1 []) live = some (.ok, 0) ∧ verdict 1 (.claimAxis 1 1 []) claimed = some (.owned, 0) ∧
    verdict 1 (.releaseAxis 1 1 []) claimed = some (.notOwner, 0) ∧
    kinds (after (.releaseAxis 0 1 []) armed) 0 = [.presetWithdrawn] ∧
    verdict 0 (.cancelPreset 0 1 []) claimed = some (.state, 0) ∧ (after (.cancelPreset 0 1 []) armed).counter.armed = none := by
  decide +kernel

theorem witness_PresetPlacesOrArms :
    (Accepts claimed 0 .preset 1 [0, 0x10, 0, 0] ∧ claimed.counter.modulus ≤ u24 [0, 0x10, 0, 0] 0) ∧
    (Accepts claimed 0 .preset 1 [0, 0x0F, 0xFF, 2] ∧ u24 [0, 0x0F, 0xFF, 2] 0 < claimed.counter.modulus ∧
      1 < u8 [0, 0x0F, 0xFF, 2] 3) ∧
    (Accepts claimed 1 .preset 1 [0, 0, 0, 1] ∧ claimed.counter.claim ≠ some 1) ∧
    (Accepts lossy 0 .preset 1 [0, 0, 0, 0] ∧ lossy.counter.claim = some 0 ∧ lossy.monitor.signalLoss = true) ∧
    (Accepts claimed 0 .preset 1 [0, 0x0F, 0xFF, 0] ∧ u8 [0, 0x0F, 0xFF, 0] 3 = 0 ∧ claimed.monitor.signalLoss = false) ∧
    (Accepts claimed 0 .preset 1 [0, 0x0F, 0xFF, 1] ∧ u8 [0, 0x0F, 0xFF, 1] 3 = 1) := by decide +kernel

theorem test_preset :
    (after (.preset 0 1 [0, 0x0F, 0xFF, 0]) faulted).counter.p = 4095 ∧
    (after (.preset 0 1 [0, 0x0F, 0xFF, 0]) faulted).counter.ref = .referenced ∧
    (after (.preset 0 1 [0, 0x0F, 0xFF, 0]) faulted).monitor.faultRecord = some recordedFault ∧
    verdict 0 (.preset 0 1 [0, 0x0F, 0xFF, 1]) claimed = some (.pending, 0) ∧
    verdict 0 (.preset 0 1 [0, 0x10, 0, 2]) claimed = some (.range, 0) ∧
    verdict 0 (.preset 0 1 [0, 0, 0, 2]) claimed = some (.range, 1) := by decide +kernel

/-- SET-AXIS with the values in force, then with each parameter one beyond its range. -/
def axisBytes (modulus mode invert period limit drift : Nat) : List Byte :=
  be32Nat modulus ++ [byteOf mode, byteOf invert] ++ be16Nat period ++ be24Nat limit ++ [byteOf drift]

/-- Which of the ranges of SET-AXIS the parameters keep. -/
def axisRanges (pl : List Byte) : List Bool :=
  [2 ≤ u32 pl 0 && u32 pl 0 ≤ 16777216, u8 pl 4 ≤ 4, u8 pl 5 ≤ 1, 1 ≤ u16 pl 6 && u16 pl 6 ≤ 1000, u24 pl 8 ≤ 16000000]

theorem witness_SetAxisChecksAndSetsLimits :
    (Accepts live 0 .setAxis 1 (axisBytes 4096 4 0 10 0 0) ∧ live.counter.claim ≠ some 0) ∧
    ([axisBytes 1 4 0 10 0 0, axisBytes 16777217 4 0 10 0 0, axisBytes 4096 5 0 10 0 0, axisBytes 4096 4 2 10 0 0,
        axisBytes 4096 4 0 0 0 0, axisBytes 4096 4 0 1001 0 0, axisBytes 4096 4 0 10 16000001 0, axisBytes 2 0 1 1 0 0,
        axisBytes 16777216 4 1 1000 16000000 255].map fun pl => firstBad (axisRanges pl)) =
      [some 0, some 0, some 1, some 2, some 3, some 3, some 4, none, none] ∧
    (Accepts claimed 0 .setAxis 1 (axisBytes 1 4 0 10 0 0) ∧ claimed.counter.claim = some 0) ∧
    (Accepts drafting 0 .setAxis 1 (axisBytes 4096 4 0 10 0 0) ∧ drafting.session ≠ none) ∧
    (let s := { claimed with active := oneList 5 [⟨100, 300⟩] }
     (Accepts s 0 .setAxis 1 (axisBytes 300 4 0 10 0 0) ∧ s.session = none ∧ s.active.list 5 = [⟨100, 300⟩] ∧
       (axisConfig (axisBytes 300 4 0 10 0 0)).modulus ≤ 300)) ∧
    (Accepts claimed 0 .setAxis 1 (axisBytes 4096 4 0 1000 16000000 255) ∧ claimed.session = none ∧
      claimed.active.reaches 4096 = false ∧ (axisConfig (axisBytes 4096 4 0 1000 16000000 255)).sameGeometry claimed.counter = true) := by
  decide +kernel

theorem witness_ChangeOfGeometryRestartsTheAxis :
    Accepts armed 0 .setAxis 1 (axisBytes 2 0 1 1 0 0) ∧ armed.counter.claim = some 0 ∧
    firstBad (axisRanges (axisBytes 2 0 1 1 0 0)) = none ∧ armed.session = none ∧ armed.active.reaches 2 = false ∧
    (axisConfig (axisBytes 2 0 1 1 0 0)).sameGeometry armed.counter = false ∧ armed.counter.ref = .unreferenced ∧
    Accepts faulted 0 .setAxis 1 (axisBytes 2 0 1 1 0 0) ∧ faulted.counter.ref ≠ .unreferenced := by decide +kernel

theorem test_set_axis :
    (after (.setAxis 0 1 (axisBytes 4096 4 0 1000 9 8)) faulted).counter = faulted.counter ∧
    (after (.setAxis 0 1 (axisBytes 4096 4 0 1000 9 8)) faulted).monitor.periodLength = 10 ∧
    (after (.setAxis 0 1 (axisBytes 4096 4 1 1000 9 8)) faulted).counter.ref = .unreferenced ∧
    (after (.setAxis 0 1 (axisBytes 4096 4 1 1000 9 8)) faulted).monitor.periodLength = 1000 ∧
    kinds (after (.setAxis 0 1 (axisBytes 2 4 0 10 0 0)) armed) 0 = [.presetWithdrawn] := by decide +kernel

theorem witness_ClearAxisFaultNamesTheFirstKind :
    (Accepts faulted 0 .clearAxisFault 1 [0] ∧ u8 [0] 0 = 0) ∧ (Accepts faulted 0 .clearAxisFault 1 [5] ∧ 4 < u8 [5] 0) ∧
    (Accepts live 0 .clearAxisFault 1 [1] ∧ live.monitor.faultRecord = none) ∧
    (Accepts faulted 0 .clearAxisFault 1 [1] ∧ recordedFault.kind.code.toNat = u8 [1] 0) ∧
    (Accepts faulted 0 .clearAxisFault 1 [4] ∧ recordedFault.kind.code.toNat ≠ u8 [4] 0 ∧ u8 [4] 0 ≤ 4) := by decide +kernel

theorem test_clear_axis_fault :
    verdict 1 (.clearAxisFault 1 1 [1]) faulted = some (.ok, 0) ∧ verdict 1 (.clearAxisFault 1 1 [4]) faulted = some (.stale, 1) ∧
    (after (.clearAxisFault 1 1 [1]) faulted).monitor.faultRecord = none ∧
    (after (.clearAxisFault 1 1 [1]) faulted).counter.ref = .faulted := by decide +kernel

theorem witness_ReadAxisAndReadTracksReport : Accepts live 0 .readAxis 1 [] ∧ Accepts live 0 .readTracks 1 [] := by decide +kernel

theorem test_read_axis_and_tracks :
    (answer 0 (.readAxis 0 1 []) faulted).map (fun x => x.2.2.take 8) = some [0, 0, 0, 0, 0, 0, 0, 0] ∧
    (answer 0 (.readAxis 0 1 []) faulted).map (fun x => x.2.2.length) = some 53 ∧
    (answer 0 (.readTracks 0 1 []) owned).map (fun x => (x.2.2.drop 35).take 14) =
      some [0, 0, 0, 2, 0, 0, 0, 1, 3, 0, 2, 0, 0, 0] := by decide +kernel

/-! ## The requests of the tracks -/

/-- The pending commit of P0 changes T5, which P0 has released. -/
def locked : State := (waiting .atRest).setTrack 5 Track.reset

theorem witness_ClaimTracksTakesFreeTracks :
    (Accepts owned 0 .claimTracks 1 [0, 0] ∧ word16 [0, 0] 0 = 0) ∧
    (Accepts owned 0 .claimTracks 1 [0, 0x40] ∧ word16 [0, 0x40] 0 ≠ 0 ∧
      Lowest (fun t => inMask (word16 [0, 0x40] 0) t && owned.foreign 0 t) 6) ∧
    (Accepts locked 1 .claimTracks 1 [0, 0x20] ∧ NoTrack (fun t => inMask (word16 [0, 0x20] 0) t && locked.foreign 1 t) ∧
      Lowest
        (fun t =>
          inMask (word16 [0, 0x20] 0) t && (locked.track t).owner.isNone &&
            locked.session.any fun e => e.isPending && e.holder ≠ 1 && locked.changed e t) 5) ∧
    (Accepts owned 0 .claimTracks 1 [0, 0x20] ∧
      NoTrack (fun t => inMask (word16 [0, 0x20] 0) t && (owned.track t).owner.isNone)) ∧
    (Accepts owned 0 .claimTracks 1 [0x80, 0x01] ∧
      NoTrack (fun t => inMask (word16 [0x80, 0x01] 0) t && owned.foreign 0 t) ∧
      ¬ NoTrack (fun t => inMask (word16 [0x80, 0x01] 0) t && (owned.track t).owner.isNone)) := by
  unfold Lowest NoTrack; decide +kernel

theorem test_claim_is_locked_by_a_pending_commit :
    verdict 1 (.claimTracks 1 1 [0, 0x20]) locked = some (.locked, 5) ∧
    verdict 1 (.claimTracks 1 1 [0, 0x10]) locked = some (.ok, 1) ∧ verdict 0 (.claimTracks 0 1 [0, 0x20]) locked = some (.ok, 1) ∧
    verdict 0 (.claimTracks 0 1 [0, 0]) locked = some (.range, 0) := by decide +kernel

theorem witness_ReleaseTracksFreesTheMask :
    (Accepts owned 0 .releaseTracks 1 [0, 0] ∧ word16 [0, 0] 0 = 0) ∧
    (Accepts owned 0 .releaseTracks 1 [0x80, 0x20] ∧
      Lowest (fun t => inMask (word16 [0x80, 0x20] 0) t && ! ((owned.track t).ownerPort = some 0)) 15) ∧
    (Accepts owned 0 .releaseTracks 1 [0, 0x20] ∧ word16 [0, 0x20] 0 ≠ 0 ∧
      NoTrack (fun t => inMask (word16 [0, 0x20] 0) t && ! ((owned.track t).ownerPort = some 0))) := by
  unfold Lowest NoTrack; decide +kernel

/-- R69: HOLD is captured where it is entered. -/
theorem test_release_captures_hold :
    let s := owned.setTrack 5 { Track.reset with owner := some { port := 0, mode := .on }, orphan := .hold, level := true }
    let t := after (.releaseTracks 0 1 [0, 0x20]) s
    (t.track 5).held = true ∧ (t.track 5).level = true ∧ (t.track 5).owner = none ∧
    verdict 0 (.releaseTracks 0 1 [0, 0x40]) s = some (.notOwner, 6) := by decide +kernel

/-- Which of the ranges of SET-TRACK the parameters keep. -/
def trackRanges (pl : List Byte) : List Bool :=
  [u8 pl 0 ≤ 15, u8 pl 1 ≤ 3, u8 pl 2 = 0 || u8 pl 2 = 2 || u8 pl 2 = 3, u16 pl 3 ≤ 20000, u8 pl 5 ≤ 1]

theorem witness_SetTrackAppliesItsFourValues :
    ([[16, 0, 0, 0, 0, 0], [15, 4, 0, 0, 0, 0], [5, 0, 1, 0, 0, 0], [5, 0, 0, 0x4E, 0x21, 0], [5, 0, 0, 0, 0, 2],
        [15, 3, 3, 0x4E, 0x20, 1]].map fun pl => firstBad (trackRanges pl)) =
      [some 0, some 1, some 2, some 3, some 4, none] ∧
    (Accepts owned 0 .setTrack 1 [16, 0, 0, 0, 0, 0] ∧ Accepts owned 0 .setTrack 1 [5, 3, 3, 0x4E, 0x20, 1]) ∧
    (Accepts owned 0 .setTrack 1 [15, 3, 3, 0x4E, 0x20, 1] ∧ (owned.track 15).ownerPort ≠ some 0) ∧
    (owned.track 5).ownerPort = some 0 := by decide +kernel

theorem test_set_track :
    let s := { owned with monitor := { owned.monitor with speed := 5000 } }
    ((after (.setTrack 0 1 [5, 1, 3, 0x07, 0xD0, 1]) s).track 5).shift = 10 ∧
    ((after (.setTrack 0 1 [5, 1, 3, 0x07, 0xD0, 1]) s).track 5).level = true ∧
    verdict 0 (.setTrack 0 1 [6, 0, 0, 0, 0, 0]) s = some (.notOwner, 1) ∧
    verdict 0 (.setTrack 0 1 [5, 0, 1, 0, 0, 0]) s = some (.range, 2) := by decide +kernel

/-! ## The requests of the edit session -/

theorem witness_OpenEditCreatesTheSession :
    (Accepts live 0 .openEdit 1 [2] ∧ 1 < u8 [2] 0) ∧
    (Accepts drafting 1 .openEdit 1 [0] ∧ drafting.session = some (editing none) ∧ (editing none).holder ≠ 1) ∧
    (Accepts drafting 0 .openEdit 1 [1] ∧ (editing none).holder = 0) ∧
    (Accepts live 0 .openEdit 1 [0] ∧ live.session = none ∧ u8 [0] 0 = 0) ∧
    (Accepts live 0 .openEdit 1 [1] ∧ u8 [1] 0 = 1) := by decide +kernel

theorem test_open_edit :
    let s := { live with active := oneList 5 [⟨100, 300⟩] }
    verdict 0 (.openEdit 0 1 [0]) s = some (.ok, 1) ∧ verdict 0 (.openEdit 0 1 [1]) s = some (.ok, 0) ∧
    verdict 1 (.openEdit 1 1 [0]) drafting = some (.locked, 0) ∧ verdict 0 (.openEdit 0 1 [0]) drafting = some (.state, 0) ∧
    verdict 0 (.openEdit 0 1 [0]) (waiting .atRest) = some (.state, 1) := by decide +kernel

theorem witness_WriteWindowsReplacesOneList :
    (Accepts live 0 .writeWindows 1 [16] ∧ 15 < u8 [16] 0) ∧
    (Accepts live 0 .writeWindows 1 [15] ∧ live.session = none ∧ (15 : TrackNo).val = u8 [15] 0) ∧
    (Accepts drafting 1 .writeWindows 1 [5] ∧ (editing none).holder ≠ 1) ∧
    (Accepts drafting 0 .writeWindows 1 [6] ∧ (drafting.track 6).ownerPort = some 1) ∧
    (Accepts (waiting .atRest) 0 .writeWindows 1 [5] ∧ (waiting .atRest).foreign 0 5 = false ∧
      (editing (some (commitOf .atRest))).pending ≠ none) ∧
    (Accepts drafting 0 .writeWindows 1 (5 :: windowBytes [⟨0, 4096⟩]) ∧
      checkList 4096 (windowsOf (5 :: windowBytes [⟨0, 4096⟩])) = some (.edgeRange, 0)) ∧
    (Accepts crowded 0 .writeWindows 1 (8 :: windowBytes [⟨0, 5⟩, ⟨5, 0⟩]) ∧
      checkList 4096 (windowsOf (8 :: windowBytes [⟨0, 5⟩, ⟨5, 0⟩])) = none ∧ 96 < almostFull.total - 0 + 2) ∧
    (Accepts crowded 0 .writeWindows 1 (7 :: windowBytes twelve) ∧ checkList 4096 (windowsOf (7 :: windowBytes twelve)) = none ∧
      almostFull.total - (almostFull.list 7).length + 12 = 96) := by decide +kernel

theorem test_write_windows :
    (handle .writeWindows 0 (7 :: windowBytes twelve) crowded).detail = 96 ∧
    verdict 0 (.writeWindows 0 1 (8 :: windowBytes [⟨0, 5⟩, ⟨5, 0⟩])) crowded = some (.poolFull, 97) ∧
    verdict 0 (.writeWindows 0 1 [7]) crowded = some (.ok, 84) ∧
    verdict 0 (.writeWindows 0 1 (5 :: windowBytes [⟨1, 2⟩, ⟨3, 3⟩])) drafting = some (.invalidWindows, 0x0301) ∧
    verdict 0 (.writeWindows 0 1 [6]) drafting = some (.notOwner, 1) ∧
    verdict 1 (.writeWindows 1 1 [6]) drafting = some (.noSession, 0) ∧
    verdict 0 (.writeWindows 0 1 [15]) live = some (.noSession, 0xFFFF) := by decide +kernel

theorem witness_ReadWindowsReportsOneList :
    (Accepts live 0 .readWindows 1 [2, 0] ∧ 1 < u8 [2, 0] 0) ∧ (Accepts live 0 .readWindows 1 [1, 16] ∧ 15 < u8 [1, 16] 1) ∧
    (Accepts live 0 .readWindows 1 [0, 15] ∧ (15 : TrackNo).val = u8 [0, 15] 1 ∧ u8 [0, 15] 0 = 0) ∧
    (Accepts live 0 .readWindows 1 [1, 0] ∧ live.session = none) ∧
    (Accepts drafting 1 .readWindows 1 [1, 5] ∧ (editing none).holder ≠ 1) ∧
    (Accepts drafting 0 .readWindows 1 [1, 5] ∧ (editing none).holder = 0) := by decide +kernel

theorem test_read_windows :
    answer 0 (.readWindows 0 1 [1, 5]) drafting =
      some (.ok, 0, [1, 5, 0, 20, 0, 0, 0x10, 0, 1, 1, 0, 0, 100, 0, 1, 44]) ∧
    answer 0 (.readWindows 0 1 [0, 5]) drafting = some (.ok, 0, [0, 5, 0, 0, 0, 0, 0x10, 0, 0, 0]) ∧
    verdict 1 (.readWindows 1 1 [1, 5]) drafting = some (.noSession, 0) := by decide +kernel

/-- A COMMIT payload. -/
def commitBytes (tag condition position direction timeout : Nat) : List Byte :=
  be16Nat tag ++ [byteOf condition] ++ be24Nat position ++ [byteOf direction] ++ be16Nat timeout

/-- Which of the ranges of COMMIT the parameters keep on a ring of 4096 counts. -/
def commitRanges (pl : List Byte) : List Bool :=
  [true, u8 pl 2 ≤ 3, u24 pl 3 < 4096, u8 pl 6 ≤ 2, u16 pl 7 ≤ 60000]

theorem witness_CommitSwapsOrWaits :
    ([commitBytes 0 4 0 0 0, commitBytes 0 1 4096 0 0, commitBytes 0 1 0 3 0, commitBytes 0 1 0 0 60001,
        commitBytes 0xFFFF 3 4095 2 60000].map fun pl => firstBad (commitRanges pl)) =
      [some 1, some 2, some 3, some 4, none] ∧
    (Accepts live 0 .commit 1 (commitBytes 0 4 0 0 0) ∧ Accepts live 0 .commit 1 (commitBytes 0 0 0 0 0) ∧ live.session = none) ∧
    (Accepts drafting 1 .commit 1 (commitBytes 0 0 0 0 0) ∧ (editing none).holder ≠ 1) ∧
    (let s := drafting.setTrack 5 { Track.reset with owner := some { port := 1, mode := .cam } }
     Accepts s 0 .commit 1 (commitBytes 0 0 0 0 0) ∧ Lowest (fun t => s.changed (editing none) t && s.foreign 0 t) 5) ∧
    (Accepts (waiting .atRest) 0 .commit 1 (commitBytes 0 0 0 0 0) ∧
      NoTrack (fun t => (waiting .atRest).changed (editing (some (commitOf .atRest))) t && (waiting .atRest).foreign 0 t)) ∧
    (Accepts drafting 0 .commit 1 (commitBytes 0 0 0 0 0) ∧
      NoTrack (fun t => drafting.changed (editing none) t && drafting.foreign 0 t)) ∧
    (Accepts drafting 0 .commit 1 (commitBytes 7 3 4095 2 60000) ∧
      1 ≤ u8 (commitBytes 7 3 4095 2 60000) 2) := by
  unfold Lowest NoTrack; decide +kernel

theorem test_commit :
    verdict 0 (.commit 0 1 (commitBytes 21 0 0 0 0)) drafting = some (.ok, 1) ∧
    (after (.commit 0 1 (commitBytes 21 0 0 0 0)) drafting).active = { oneList 5 [⟨100, 300⟩] with tag := 21 } ∧
    kinds (after (.commit 0 1 (commitBytes 21 0 0 0 0)) drafting) 0 = [.swapDone] ∧
    verdict 0 (.commit 0 1 (commitBytes 21 1 0 0 2000)) drafting = some (.pending, 1) ∧
    (after (.commit 0 1 (commitBytes 21 1 0 0 2000)) drafting).active = drafting.active := by decide +kernel

theorem witness_PendingCommitsEndByRequestOrDeadline :
    (Accepts live 0 .abortEdit 1 [2] ∧ 1 < u8 [2] 0) ∧ (Accepts live 0 .abortEdit 1 [1] ∧ live.session = none) ∧
    (Accepts drafting 1 .abortEdit 1 [0] ∧ (editing none).holder ≠ 1) ∧
    (Accepts drafting 0 .abortEdit 1 [0] ∧ u8 [0] 0 = 0 ∧ (editing none).pending = none) ∧
    (Accepts (waiting .atRest) 0 .abortEdit 1 [0] ∧ (editing (some (commitOf .atRest))).pending = some (commitOf .atRest)) ∧
    (Accepts drafting 0 .abortEdit 1 [1] ∧ u8 [1] 0 = 1) ∧ Accepts (waiting .atRest) 0 .abortEdit 1 [1] ∧
    ((timed 1000).session = some (editing (some { commitOf .atRest with timeout := 1, deadline := some 1000 })) ∧
      1 * 1000 ≤ ((timed 1000).time - 0).toNat) ∧
    (((timed 999).time - 0).toNat < 1 * 1000 ∧ (commitOf .atRest).timeout = 0) := by decide +kernel

theorem test_abort_and_timeout :
    (after (.abortEdit 0 1 [0]) (waiting .atRest)).session = none ∧
    (after (.abortEdit 0 1 [1]) (waiting .atRest)).session = some (editing none) ∧
    kinds (after (.abortEdit 0 1 [1]) (waiting .atRest)) 0 = [.commitWithdrawn] ∧
    verdict 0 (.abortEdit 0 1 [1]) drafting = some (.state, 0) ∧
    (after .commitTimeout (timed 1000)).session = some (editing none) ∧ after .commitTimeout (timed 999) = timed 999 := by
  decide +kernel

/-! ## The requests of the store -/

theorem witness_StoreSlotTakesItsSnapshot :
    (Accepts owned 0 .storeSlot 1 [4, 0] ∧ 3 < u8 [4, 0] 0) ∧ (Accepts owned 0 .storeSlot 1 [3, 2] ∧ 1 < u8 [3, 2] 1) ∧
    (Accepts owned 1 .storeSlot 1 [3, 1] ∧ (3 : SlotNo).val = u8 [3, 1] 0 ∧ owned.counter.claim ≠ some 1) ∧
    (Accepts storing 0 .storeSlot 1 [0, 0] ∧ storing.store.op.isSome = true ∧ storing.counter.claim = some 0) ∧
    (let s := stocked (.valid (image 0xFFFFFFFF true))
     Accepts s 0 .storeSlot 1 [3, 1] ∧ s.slot 0 = .valid (image 0xFFFFFFFF true) ∧ s.store.op = none ∧
       (image 0xFFFFFFFF true).generation = 0xFFFFFFFF) ∧
    (Accepts (stocked (.valid (image 0xFFFFFFFE true))) 0 .storeSlot 1 [3, 1] ∧
      (image 0xFFFFFFFE true).generation ≠ 0xFFFFFFFF) ∧
    (Accepts owned 0 .storeSlot 1 [0, 0] ∧ ∀ j, (owned.slot j).validImage = none) := by decide +kernel

theorem test_store_slot :
    verdict 0 (.storeSlot 0 1 [1, 1]) owned = some (.pending, 1) ∧
    verdict 0 (.storeSlot 0 1 [1, 1]) (stocked (.valid (image 260 true))) = some (.pending, 261) ∧
    verdict 0 (.storeSlot 0 1 [1, 1]) (stocked (.valid (image 0xFFFFFFFF true))) = some (.slotState, 0) ∧
    verdict 1 (.storeSlot 1 1 [1, 1]) owned = some (.notOwner, 0) ∧
    verdict 0 (.storeSlot 0 1 [0, 0]) storing = some (.storeBusy, 1) := by decide +kernel

theorem witness_EraseSlotAndReadSlot :
    (Accepts owned 0 .eraseSlot 1 [4] ∧ 3 < u8 [4] 0) ∧ (Accepts owned 1 .eraseSlot 1 [3] ∧ owned.counter.claim ≠ some 1) ∧
    (Accepts storing 0 .eraseSlot 1 [0] ∧ storing.store.op.isSome = true) ∧
    (Accepts owned 0 .eraseSlot 1 [3] ∧ (3 : SlotNo).val = u8 [3] 0 ∧ owned.store.op = none) ∧
    (Accepts storing 0 .readSlot 1 [1] ∧ storing.slot 1 = .writing (image 9 true)) ∧
    (Accepts (stocked (.valid (image 9 true))) 0 .readSlot 1 [0] ∧ (stocked (.valid (image 9 true))).slot 0 = .valid (image 9 true)) ∧
    (Accepts owned 0 .readSlot 1 [3] ∧ owned.slot 3 = .empty) ∧ Accepts owned 0 .readSlot 1 [4] := by decide +kernel

theorem test_erase_and_read_slot :
    (after (.eraseSlot 0 1 [0]) (stocked (.valid (image 9 true)))).slot 0 = .erasing ∧
    answer 0 (.readSlot 0 1 [1]) storing = some (.ok, 0, [1, 3, 0, 0, 0, 9, 1, 0, 44, 0, 0, 0x10, 0, 1]) ∧
    answer 0 (.readSlot 0 1 [2]) erasing = some (.ok, 0, [2, 4, 0, 0, 0, 0, 0, 0, 0, 0, 0, 0, 0, 0]) := by decide +kernel

/-- P0 edits and slot 0 is as given. -/
def editingOver (x : Slot) : State := { stocked x with session := some (editing none) }

theorem witness_LoadSlotFillsTheShadow :
    (Accepts live 0 .loadSlot 1 [4] ∧ 3 < u8 [4] 0) ∧ (Accepts live 0 .loadSlot 1 [3] ∧ live.session = none) ∧
    (Accepts drafting 1 .loadSlot 1 [0] ∧ (editing none).holder ≠ 1) ∧
    (Accepts (waiting .atRest) 0 .loadSlot 1 [0] ∧ (editing (some (commitOf .atRest))).pending ≠ none) ∧
    (let s := { storing with session := some (editing none) }
     Accepts s 0 .loadSlot 1 [0] ∧ s.store.op.isSome = true) ∧
    (Accepts (editingOver .empty) 0 .loadSlot 1 [0] ∧ (editingOver .empty).slot 0 = .empty) ∧
    (Accepts (editingOver (.valid (image 9 true))) 0 .loadSlot 1 [0] ∧ (image 9 true).modulus = 4096) ∧
    (Accepts (editingOver (.valid { image 9 true with modulus := 8192 })) 0 .loadSlot 1 [0] ∧
      { image 9 true with modulus := 8192 }.modulus ≠ (editingOver .empty).counter.modulus) := by decide +kernel

theorem test_load_slot :
    verdict 0 (.loadSlot 0 1 [0]) (editingOver (.valid (image 9 true))) = some (.ok, 1) ∧
    verdict 0 (.loadSlot 0 1 [0]) (editingOver (.valid { image 9 true with modulus := 8192 })) = some (.mismatch, 0) ∧
    verdict 0 (.loadSlot 0 1 [0]) (editingOver (.damaged .torn)) = some (.slotState, 2) := by decide +kernel

/-! ## The requests of the event unit -/

theorem witness_SubscribeAndFetchEvents :
    (Accepts live 0 .subscribe 1 [0, 0, 32] ∧ 31 < u8 [0, 0, 32] 2) ∧
    (Accepts live 0 .subscribe 1 [0xFF, 0xFF, 31] ∧ u8 [0xFF, 0xFF, 31] 2 ≤ 31) ∧
    (Accepts (subscribed 32) 0 .fetchEvents 1 [0] ∧ Accepts (subscribed 32) 0 .fetchEvents 1 [9]) ∧
    (Accepts (subscribed 32) 0 .fetchEvents 1 [1] ∧ Accepts (subscribed 0) 0 .fetchEvents 1 [8]) := by decide +kernel

theorem test_subscribe_and_fetch :
    answer 0 (.subscribe 0 1 [0, 1, 2]) (subscribed 1) = some (.ok, 0, [0xFF, 0xFF, 0x1F]) ∧
    answer 0 (.fetchEvents 0 1 [1]) (subscribed 32) =
      some (.ok, 31, [0xFF, 0xFF, 1, 0, 7, 1, 3, 0, 0, 1, 0, 0, 0, 2, 0, 0, 3, 0, 0, 4]) ∧
    answer 0 (.fetchEvents 0 1 [8]) (subscribed 0) = some (.ok, 0, [0, 0, 0]) ∧
    ((after (.fetchEvents 0 1 [1]) (subscribed 32)).box 0).lost = 0 ∧
    verdict 0 (.fetchEvents 0 1 [9]) (subscribed 0) = some (.range, 0) := by decide +kernel

/-! ## The invariants -/

/-- P0 holds the axis, T5, the session with a commit that is due, and the store operation; a slot is VALID; an event is queued. -/
def rich : State :=
  { timed 1000 with
    counter := { claimed.counter with ref := .referenced, r := some 7, armed := some { value := 4095, port := 0 } }
    store := { storing.store with slots := storing.store.slots.put 0 (.valid (image 8 true)) }
    mail := (subscribed 32).mail }

/-- The hypotheses of the six invariants hold in `rich`, and it steps (the commit is withdrawn, and the event is lost). -/
theorem witness_EveryStepKeeps_next : ∃ t, step rich = .next t := by
  have due : dueCommand rich = some .commitTimeout := by decide +kernel
  show ∃ t, tick rich = .next t
  unfold tick
  rw [due]
  exact ⟨_, rfl⟩

theorem rich_slots : ∀ i g, rich.slot i = .valid g → i = 0 ∧ g = image 8 true := by
  have h : ∀ i, (rich.slot i).validImage = if i = 0 then some (image 8 true) else none := by decide +kernel
  intro i g e
  have := h i
  rw [e] at this
  by_cases hi : i = 0
  · subst hi; exact ⟨rfl, Option.some.inj this⟩
  · simp [hi, Slot.validImage] at this

theorem witness_EveryStepKeepsLevelsPinsAndShifts : bootLaw rich ∧ pinLaw rich ∧ levelLaw rich ∧ shiftLaw rich := by
  refine ⟨fun h => absurd h (by decide +kernel), fun _ => ?_, fun _ => ?_, ?_⟩
  · decide +kernel
  · decide +kernel
  · unfold shiftLaw; decide +kernel

theorem witness_EveryStepKeepsTheQueues : mailLaw rich := by unfold mailLaw; decide +kernel

theorem witness_EveryStepKeepsHoldersOpen : holdersLaw rich := by
  refine ⟨by decide +kernel, fun a h => ?_, by decide +kernel, fun e h => ?_, fun o p h hp => ?_, by decide +kernel, by decide +kernel⟩
  · obtain rfl := Option.some.inj h; decide +kernel
  · obtain rfl := Option.some.inj h; decide +kernel
  · obtain rfl := Option.some.inj h; obtain rfl := Option.some.inj hp; decide +kernel

theorem witness_EveryStepKeepsTheRingAndItsPrograms : ringLaw rich ∧ referenceLaw rich := by
  refine ⟨⟨by decide +kernel, by decide +kernel, fun r h => ?_, fun a h => ?_, ?_, fun e h => ⟨?_, fun pc hpc => ?_⟩, fun i g h => ?_⟩, ?_⟩
  · obtain rfl := Option.some.inj h; decide +kernel
  · obtain rfl := Option.some.inj h; decide +kernel
  · unfold bankLaw; decide +kernel
  · obtain rfl := Option.some.inj h; unfold bankLaw; decide +kernel
  · obtain rfl := Option.some.inj h; obtain rfl := Option.some.inj hpc; decide +kernel
  · obtain ⟨-, rfl⟩ := rich_slots i g h; decide +kernel
  · unfold referenceLaw; decide +kernel

theorem witness_EveryStepKeepsTheStore : storeLaw rich := by
  refine ⟨fun i j g h hg hh _ => ?_, fun i j g h hg hh => ?_, fun h => absurd h (by decide +kernel), fun o h => ?_⟩
  · exact (rich_slots i g hg).1.trans (rich_slots j h hh).1.symm
  · obtain ⟨-, rfl⟩ := rich_slots j h hh
    have writes : ∀ i, (match rich.slot i with | .writing x => x.generation | _ => 0) ≠ (image 8 true).generation := by decide +kernel
    have := writes i
    rw [hg] at this
    exact this
  · obtain rfl := Option.some.inj h; decide +kernel

theorem witness_EveryStepKeepsPendingCommitsOwned : commitLaw rich := by
  intro e h _
  obtain rfl := Option.some.inj h
  decide +kernel

end Sys2Proof.Tests
end

section
/-! PROOFS. The tick of the clock on an empty queue: what `dueCommand` answers in each case of the model's order (log 4), and the
step that follows from it. When each thing is due stands in the laws of the clock. -/

namespace Sys2Proof.Machine

variable {s : State}

/-! ## What is due -/

theorem dueCommand_of_restartDue (restart : restartDue s = true) : dueCommand s = some .restartDeviceReset := by
  rw [dueCommand, if_pos restart]

theorem dueCommand_of_holdDue (noRestart : ¬ restartDue s = true) (hold : s.holdDue = true) :
    dueCommand s = some .signalRestored := by
  rw [dueCommand, if_neg noRestart, if_pos hold]

theorem dueCommand_of_expiredPort {p : Port} (noRestart : ¬ restartDue s = true) (noHold : ¬ s.holdDue = true)
    (expired : expiredPort s = some p) : dueCommand s = some (.supervisionExpiry p) := by
  rw [dueCommand, if_neg noRestart, if_neg noHold, expired]

/-- Where no port has expired, the commit deadline and the period end are what is left. -/
theorem dueCommand_of_noneExpired (noRestart : ¬ restartDue s = true) (noHold : ¬ s.holdDue = true)
    (noneExpired : expiredPort s = none) :
    dueCommand s = if s.commitDue then some .commitTimeout else if s.periodDue then some .periodEnd else none := by
  rw [dueCommand, if_neg noRestart, if_neg noHold, noneExpired]

/-! ## The step on an empty queue -/

theorem step_of_due {c : Instr} (empty : s.pending = []) (due : dueCommand s = some c) : step s = exec c s := by
  rw [step, stepQueue, empty]
  simp only [tick, due]

theorem step_of_nothingDue (empty : s.pending = []) (due : dueCommand s = none) : step s = .next (advanceTime s) := by
  rw [step, stepQueue, empty]
  simp only [tick, due]

theorem advanceTime_of_inReset (h : s.lifecycle = .inReset) : advanceTime s = s := if_pos h

theorem advanceTime_of_not_inReset (h : s.lifecycle ≠ .inReset) : advanceTime s = { s with time := s.time + 1 } := if_neg h

/-- Settles O2: each clause's conditions say which branch of `dueCommand` is taken, by the laws of what is due. -/
theorem idleStepIsOneTickOfTheClock : Obligations.IdleStepIsOneTickOfTheClock := by
  intro s empty restart restored expired deadline period
  have noRestart (h : ¬ restart) : ¬ restartDue s = true := mt (restartDue_iff s).1 h
  have noHold (h : ¬ restored) : ¬ s.holdDue = true := mt (holdDue_iff s).1 h
  have notExpired {p : Port} (h : ¬ expired p) : s.supervisionDue p = false :=
    Bool.eq_false_iff.2 (mt (supervisionDue_iff s p).1 h)
  have noneExpired (h : ∀ p, ¬ expired p) : expiredPort s = none := expiredPort_none fun p => notExpired (h p)
  have noDeadline (h : ¬ deadline) : ¬ s.commitDue = true := mt (commitDue_iff s).1 h
  have noPeriod (h : ¬ period) : ¬ s.periodDue = true := mt (periodDue_iff s).1 h
  refine ⟨?restart, ?restored, ?expired, ?deadline, ?period, ?nothing⟩
  case restart =>
    intro hrestart
    exact step_of_due empty (dueCommand_of_restartDue ((restartDue_iff s).2 hrestart))
  case restored =>
    intro hr hrestored
    exact step_of_due empty (dueCommand_of_holdDue (noRestart hr) ((holdDue_iff s).2 hrestored))
  case expired =>
    intro p hr hh hexpired lowest
    have first : expiredPort s = some p :=
      expiredPort_some ((supervisionDue_iff s p).2 hexpired) fun q hq => notExpired (lowest q hq)
    exact step_of_due empty (dueCommand_of_expiredPort (noRestart hr) (noHold hh) first)
  case deadline =>
    intro hr hh he hdeadline
    apply step_of_due empty
    rw [dueCommand_of_noneExpired (noRestart hr) (noHold hh) (noneExpired he), if_pos ((commitDue_iff s).2 hdeadline)]
  case period =>
    intro hr hh he hd hperiod
    apply step_of_due empty
    rw [dueCommand_of_noneExpired (noRestart hr) (noHold hh) (noneExpired he), if_neg (noDeadline hd),
      if_pos ((periodDue_iff s).2 hperiod)]
  case nothing =>
    intro hr hh he hd hp
    have due : dueCommand s = none := by
      rw [dueCommand_of_noneExpired (noRestart hr) (noHold hh) (noneExpired he), if_neg (noDeadline hd), if_neg (noPeriod hp)]
    rw [step_of_nothingDue empty due]
    exact ⟨fun h => by rw [advanceTime_of_not_inReset h], fun h => by rw [advanceTime_of_inReset h]⟩

end Sys2Proof.Machine
end

section
/-! PROOFS. The signal-loss condition (R33 to R35): what a report of receivers in fault, a report of healthy receivers and the end of
the restore hold do, case by case, and the statement put together from them. -/

namespace Sys2Proof.Machine

variable {s : State} {lines : LineSet}

theorem noLines_iff : noLines lines = true ↔ lines = ⟨false, false, false⟩ := by
  obtain ⟨a, b, index⟩ := lines
  simp [noLines, and_assoc]

/-- The bits of a set of lines do not overlap, so their union is their sum. -/
theorem lineCode_sum (l : LineSet) :
    lineCode l = (if l.a then 1 else 0) + (if l.b then 2 else 0) + (if l.index then 4 else 0) := by
  obtain ⟨a, b, index⟩ := l
  revert a b index
  decide

theorem exec_receiverFault : exec (.receiverFault lines) s = .next (receiversFail lines s) := rfl

theorem exec_receiverHealthy : exec (.receiverHealthy lines) s = .next (receiversHeal lines s) := rfl

theorem exec_signalRestored : exec .signalRestored s = .next (if s.holdDue then restoreSignal s else s) := rfl

/-! ## A report of receivers in fault -/

/-- R35. -/
theorem receiversFail_beforeService (closed : s.inService = false) :
    receiversFail lines s =
      { s with monitor := { s.monitor with inFault := joinLines s.monitor.inFault lines } } := by
  rw [receiversFail, if_pos (by rw [closed]; rfl)]
  rfl

/-- R34: a running restore hold returns to idle. -/
theorem receiversFail_duringLoss (service : s.inService = true) (loss : s.monitor.signalLoss = true)
    (named : lines ≠ ⟨false, false, false⟩) :
    receiversFail lines s =
      { s with monitor := { s.monitor with inFault := joinLines s.monitor.inFault lines, restoreHold := none } } := by
  rw [receiversFail, if_neg (by simp [service]), if_pos loss, if_neg (mt noLines_iff.1 named)]
  rfl

/-- R33: receivers that were in fault already begin nothing. -/
theorem receiversFail_noneNew (service : s.inService = true) (noLoss : s.monitor.signalLoss = false)
    (same : joinLines s.monitor.inFault lines = s.monitor.inFault) : receiversFail lines s = s := by
  rw [receiversFail, if_neg (by simp [service]), if_neg (by simp [noLoss]), if_pos same]

/-- R33: a receiver newly in fault begins the condition. -/
theorem receiversFail_begins (service : s.inService = true) (noLoss : s.monitor.signalLoss = false)
    (new : joinLines s.monitor.inFault lines ≠ s.monitor.inFault) :
    receiversFail lines s =
      let failed := joinLines s.monitor.inFault lines
      raised .signalLost
        (bytes24 0 0 ((if failed.a then 1 else 0) + (if failed.b then 2 else 0) + (if failed.index then 4 else 0)))
        { s with
          monitor :=
            { s.monitor with inFault := failed, signalLoss := true, lossTouched := true, restoreHold := none } } := by
  rw [receiversFail, if_neg (by simp [service]), if_neg (by simp [noLoss]), if_neg new, raiseLowering_raised, lineCode_sum]
  rfl

/-! ## A report of healthy receivers -/

/-- R34: the restore hold starts only in service, during the condition, from idle, and with all receivers healthy. -/
theorem receiversHeal_noStart
    (noStart : s.inService = false ∨ s.monitor.signalLoss = false ∨
      dropLines s.monitor.inFault lines ≠ ⟨false, false, false⟩ ∨ s.monitor.restoreHold ≠ none) :
    receiversHeal lines s =
      { s with monitor := { s.monitor with inFault := dropLines s.monitor.inFault lines } } := by
  have idle : ¬ (s.inService && s.monitor.signalLoss && noLines (dropLines s.monitor.inFault lines) &&
      s.monitor.restoreHold.isNone) = true := by
    simp only [Bool.and_eq_true, noLines_iff, Option.isNone_iff_eq_none]
    rintro ⟨⟨⟨service, loss⟩, healthy⟩, none⟩
    simp [service, loss, healthy, none] at noStart
  rw [receiversHeal, if_neg idle]
  rfl

/-- R34: full health during the condition starts an idle restore hold. -/
theorem receiversHeal_starts (service : s.inService = true) (loss : s.monitor.signalLoss = true)
    (healthy : dropLines s.monitor.inFault lines = ⟨false, false, false⟩) (idle : s.monitor.restoreHold = none) :
    receiversHeal lines s =
      { s with
        monitor := { s.monitor with inFault := dropLines s.monitor.inFault lines, restoreHold := some s.time } } := by
  rw [receiversHeal, if_pos (by simp [service, loss, noLines_iff.2 healthy, idle])]
  rfl

/-! ## The end of the condition -/

/-- R34: the ways in which the restore hold can fail to have run its 1 ms with all receivers healthy. -/
theorem not_holdDue
    (h : s.monitor.signalLoss = false ∨ s.monitor.inFault ≠ ⟨false, false, false⟩ ∨ s.monitor.restoreHold = none ∨
      ∃ start, s.monitor.restoreHold = some start ∧ (s.time - start).toNat < 1000) :
    ¬ s.holdDue = true := by
  rw [holdDue_iff]
  rintro ⟨loss, healthy, start, running, passed⟩
  rcases h with noLoss | inFault | idle | ⟨start', running', short⟩
  · exact absurd (loss.symm.trans noLoss) (by decide)
  · exact inFault healthy
  · exact absurd (running.symm.trans idle) (by simp)
  · obtain rfl : start = start' := Option.some.inj (running.symm.trans running')
    omega

/-- Settles O18: each clause is one case of a report of fault, of a report of health, or of the restore hold. -/
theorem signalLossFollowsTheReceivers : Obligations.SignalLossFollowsTheReceivers := by
  intro s lines failed healed
  refine ⟨?beforeService, ?duringLoss, ?withoutLoss, ?ends, ?goesOn⟩
  case beforeService =>
    intro closed
    rw [exec_receiverFault, exec_receiverHealthy, receiversFail_beforeService closed, receiversHeal_noStart (.inl closed)]
    exact ⟨rfl, rfl⟩
  case duringLoss =>
    intro service loss
    refine ⟨fun named => ?_, fun noStart => ?_, fun healthy idle => ?_⟩
    · rw [exec_receiverFault, receiversFail_duringLoss service loss named]; rfl
    · rw [exec_receiverHealthy, receiversHeal_noStart (.inr (.inr noStart))]; rfl
    · rw [exec_receiverHealthy, receiversHeal_starts service loss healthy idle]; rfl
  case withoutLoss =>
    intro service noLoss
    refine ⟨fun same => ?_, fun new => ?_, ?_⟩
    · rw [exec_receiverFault, receiversFail_noneNew service noLoss same]
    · rw [exec_receiverFault, receiversFail_begins service noLoss new]; rfl
    · rw [exec_receiverHealthy, receiversHeal_noStart (.inr (.inl noLoss))]; rfl
  case ends =>
    intro start loss healthy running passed
    rw [exec_signalRestored, if_pos ((holdDue_iff s).2 ⟨loss, healthy, start, running, passed⟩)]
    rfl
  case goesOn =>
    intro notRun
    rw [exec_signalRestored, if_neg (not_holdDue notRun)]

end Sys2Proof.Machine
end

section
/-! PROOFS. CLEAR-AXIS-FAULT (R39): the codes of the four fault kinds, the request's four cases, and the statement put together
from them. -/

namespace Sys2Proof.Machine

/-! ## The codes of the fault kinds -/

theorem faultKind_ofCode_eq_some {n : Nat} {k : FaultKind} : FaultKind.ofCode n = some k ↔ k.code.toNat = n := by
  constructor
  · intro named
    match n, named with
    | 1, rfl | 2, rfl | 3, rfl | 4, rfl => rfl
  · rintro rfl
    cases k <;> rfl

theorem faultKind_isSome (n : Nat) : (FaultKind.ofCode n).isSome = decide (1 ≤ n ∧ n ≤ 4) := by
  match n with
  | 0 | 1 | 2 | 3 | 4 => rfl
  | n + 5 => simp [FaultKind.ofCode]

theorem faultKind_ofCode_none {n : Nat} (outside : n = 0 ∨ 4 < n) : FaultKind.ofCode n = none := by
  rw [← Option.not_isSome_iff_eq_none, faultKind_isSome, decide_eq_true_eq]
  omega

theorem faultKind_ofCode_some {n : Nat} (low : 1 ≤ n) (high : n ≤ 4) : ∃ k, FaultKind.ofCode n = some k := by
  rw [← Option.isSome_iff_exists, faultKind_isSome, decide_eq_true_eq]
  exact ⟨low, high⟩

/-! ## The cases of the request -/

variable {s : State} {payload : List Byte} (p : Port)

theorem reqClearAxisFault_noKind (noKind : FaultKind.ofCode (u8 payload 0) = none) :
    reqClearAxisFault p payload s = refuseRange s 0 := by
  rw [reqClearAxisFault, noKind]

theorem reqClearAxisFault_noRecord {k : FaultKind} (named : FaultKind.ofCode (u8 payload 0) = some k)
    (empty : s.monitor.faultRecord = none) : reqClearAxisFault p payload s = replyOk s := by
  simp only [reqClearAxisFault, named, empty]

theorem reqClearAxisFault_firstKind {f : FaultRecord} (named : FaultKind.ofCode (u8 payload 0) = some f.kind)
    (held : s.monitor.faultRecord = some f) :
    reqClearAxisFault p payload s = replyOk { s with monitor := { s.monitor with faultRecord := none } } := by
  simp only [reqClearAxisFault, named, held, if_true]
  rfl

theorem reqClearAxisFault_otherKind {f : FaultRecord} {k : FaultKind} (named : FaultKind.ofCode (u8 payload 0) = some k)
    (held : s.monitor.faultRecord = some f) (other : f.kind ≠ k) :
    reqClearAxisFault p payload s = refuse s .stale (f.kind.code.setWidth 16) := by
  simp only [reqClearAxisFault, named, held, if_neg other]

/-- Settles O41: the kind named is read from its code, and compared with the kind of the record. -/
theorem clearAxisFaultNamesTheFirstKind : Obligations.ClearAxisFaultNamesTheFirstKind := by
  intro s p seq payload accepted
  refine ⟨fun outside => ?range, fun low high => ?known⟩
  case range =>
    exact refuses_of accepted (reqClearAxisFault_noKind p (faultKind_ofCode_none outside)) rfl
  case known =>
    obtain ⟨k, named⟩ := faultKind_ofCode_some low high
    refine ⟨fun empty => ?_, fun f held first => ?_, fun f held other => ?_⟩
    · exact completes_of accepted (reqClearAxisFault_noRecord p named empty) rfl
    · exact completes_of accepted (reqClearAxisFault_firstKind p (faultKind_ofCode_eq_some.2 first) held) rfl
    · have otherKind : f.kind ≠ k := by
        rintro rfl
        exact other (faultKind_ofCode_eq_some.1 named)
      exact refuses_of accepted (reqClearAxisFault_otherKind p named held otherKind) rfl

end Sys2Proof.Machine
end

section
/-! PROOFS. Levels, pins and shifts (R52, R59, R70, R76): what a re-evaluation repairs, which operations need one, and the
invariant of every step put together from them. -/

namespace Sys2Proof.Machine

variable {s t : State}

/-! ## Before service -/

/-- Where the part is in service, the law of the time before service asks nothing. -/
theorem bootLaw_of_inService (service : s.inService = true) : bootLaw s := fun closed =>
  absurd (service.symm.trans closed) (by decide)

/-- No port is OPEN before service. -/
theorem inService_of_isOpen (boot : bootLaw s) {p : Port} (opened : s.isOpen p = true) : s.inService = true := by
  cases service : s.inService with
  | true => rfl
  | false =>
    obtain ⟨ports, -⟩ := boot service
    simp [State.isOpen, ports p] at opened

/-- What the law of the time before service speaks of. -/
structure BootView where
  service : Bool
  portState : Port → PortState
  p : Nat
  ref : RefState
  r : Option Nat
  armed : Option Armed
  claim : Option Port
  session : Option EditSession
  op : Option StoreOp
  speed : Int
  loss : Bool
  fault : Option FaultRecord
  tracks : Table 16 Track

def State.bootView (s : State) : BootView :=
  { service := s.inService, portState := fun p => (s.port p).state, p := s.counter.p, ref := s.counter.ref, r := s.counter.r,
    armed := s.counter.armed, claim := s.counter.claim, session := s.session, op := s.store.op, speed := s.monitor.speed,
    loss := s.monitor.signalLoss, fault := s.monitor.faultRecord, tracks := s.tracks }

theorem bootLaw_congr (same : t.bootView = s.bootView) (boot : bootLaw s) : bootLaw t := by
  simp only [State.bootView, BootView.mk.injEq] at same
  obtain ⟨service, ports, p, ref, r, armed, claim, session, op, speed, loss, fault, tracks⟩ := same
  have ports' (q : Port) : (t.port q).state = (s.port q).state := congrFun ports q
  simpa only [bootLaw, State.track, service, ports', p, ref, r, armed, claim, session, op, speed, loss, fault, tracks]
    using boot

/-- R52: at speed 0 no track has a shift, so before service every shift is its lead's. -/
theorem shiftLaw_of_boot (boot : bootLaw s) (closed : s.inService = false) : shiftLaw s := by
  obtain ⟨-, -, -, -, -, -, -, -, speed, -, -, tracks⟩ := boot closed
  intro i
  obtain ⟨-, shift, -⟩ := tracks i
  simp [shift, speed, leadShift]

/-! ## What the laws of service say of a state -/

/-- R76: every pin is its level under OE. -/
def PinsDriven (s : State) : Prop := ∀ i, (s.track i).pin = ((s.track i).level && s.oe)

/-- R70: every level is that of Table 4-2. -/
def LevelsSet (s : State) : Prop := ∀ i, (s.track i).level = s.levelOf i

/-- What a re-evaluation asks for: the part is in service, pins and shifts are right. Levels may be out of date. -/
structure Ready (s : State) : Prop where
  service : s.inService = true
  pins : PinsDriven s
  shifts : shiftLaw s

/-- In service with levels, pins and shifts right. -/
structure InForce (s : State) : Prop extends Ready s where
  levels : LevelsSet s

theorem PinsDriven.congr (h : PinsDriven s) (tracks : t.tracks = s.tracks) (oe : t.oe = s.oe) : PinsDriven t := by
  simpa only [PinsDriven, State.track, tracks, oe] using h

theorem shiftLaw_congr (tracks : t.tracks = s.tracks) (speed : t.monitor.speed = s.monitor.speed) (h : shiftLaw s) :
    shiftLaw t := by
  simpa only [shiftLaw, State.track, tracks, speed] using h

theorem Ready.congr (h : Ready s) (service : t.inService = s.inService) (tracks : t.tracks = s.tracks) (oe : t.oe = s.oe)
    (speed : t.monitor.speed = s.monitor.speed) : Ready t :=
  ⟨service.trans h.service, h.pins.congr tracks oe, shiftLaw_congr tracks speed h.shifts⟩

/-- What levels are read from. -/
structure LevelView where
  tracks : Table 16 Track
  active : Bank
  p : Nat
  modulus : Nat
  ref : RefState

def State.levelView (s : State) : LevelView :=
  { tracks := s.tracks, active := s.active, p := s.counter.p, modulus := s.counter.modulus, ref := s.counter.ref }

theorem LevelsSet.congr (h : LevelsSet s) (same : t.levelView = s.levelView) : LevelsSet t := by
  simp only [State.levelView, LevelView.mk.injEq] at same
  obtain ⟨tracks, active, p, modulus, ref⟩ := same
  intro i
  have level : t.levelOf i = s.levelOf i := by
    unfold State.levelOf State.inside State.track
    rw [tracks, active, p, modulus, ref]
  rw [level, State.track, tracks]
  exact h i

/-- What levels, pins and shifts are read from. -/
structure OutputView where
  service : Bool
  levels : LevelView
  oe : Bool
  speed : Int

def State.outputView (s : State) : OutputView :=
  { service := s.inService, levels := s.levelView, oe := s.oe, speed := s.monitor.speed }

theorem InForce.congr (h : InForce s) (same : t.outputView = s.outputView) : InForce t := by
  simp only [State.outputView, OutputView.mk.injEq] at same
  obtain ⟨service, levels, oe, speed⟩ := same
  have tracks : t.tracks = s.tracks := congrArg LevelView.tracks levels
  exact ⟨h.toReady.congr service tracks oe speed, h.levels.congr levels⟩

/-! ## Re-evaluation (R71) -/

/-- A pin that is right for a track's old level is right for its new one. -/
theorem evaluated_pin (pins : PinsDriven s) (i : TrackNo) :
    (evaluated s i).pin = ((evaluated s i).level && s.oe) := by
  unfold evaluated
  split
  · exact pins i
  · rfl

theorem reevaluate_pins (c : EdgeCause) (ts : List TrackNo) (pins : PinsDriven s) : PinsDriven (reevaluate c ts s) := by
  intro i
  rw [reevaluate_track, reevaluate_oe]
  split
  · exact evaluated_pin pins i
  · exact pins i

theorem reevaluate_shifts (c : EdgeCause) (ts : List TrackNo) (shifts : shiftLaw s) : shiftLaw (reevaluate c ts s) := by
  intro i
  rw [reevaluate_track, reevaluate_monitor]
  split
  · simpa using shifts i
  · exact shifts i

/-- A re-evaluation sets every level when the levels of the tracks it leaves out are right. -/
theorem reevaluate_levels (c : EdgeCause) {ts : List TrackNo} (others : ∀ i, i ∉ ts → (s.track i).level = s.levelOf i) :
    LevelsSet (reevaluate c ts s) := by
  intro i
  rw [reevaluate_track, reevaluate_levelOf]
  split
  · exact evaluated_level s i
  · next h => exact others i h

theorem Ready.reevaluate (c : EdgeCause) {ts : List TrackNo} (h : Ready s)
    (others : ∀ i, i ∉ ts → (s.track i).level = s.levelOf i) : InForce (reevaluate c ts s) where
  service := (inService_congr (reevaluate_lifecycle s c ts)).trans h.service
  pins := reevaluate_pins c ts h.pins
  shifts := reevaluate_shifts c ts h.shifts
  levels := reevaluate_levels c others

theorem reevaluateAll_levels (c : EdgeCause) (s : State) : LevelsSet (reevaluateAll c s) :=
  reevaluate_levels c fun i out => absurd (Table.mem_numbers i) out

theorem Ready.reevaluateAll (c : EdgeCause) (h : Ready s) : InForce (reevaluateAll c s) :=
  h.reevaluate c fun i out => absurd (Table.mem_numbers i) out

/-! ## The swap of a pending commit (R95) -/

/-- Where a commit is pending, the active bank is replaced and every track re-evaluated; otherwise nothing happens. -/
theorem swapPending_cases (s : State) :
    swapPending s = s ∨ ∃ z, swapPending s = reevaluateAll .swap z ∧ z.inService = s.inService ∧ z.tracks = s.tracks ∧
      z.oe = s.oe ∧ z.monitor = s.monitor := by
  unfold swapPending
  split
  · exact .inl rfl
  · split
    · exact .inl rfl
    · exact .inr ⟨_, rfl, rfl, rfl, rfl, rfl⟩

theorem swapPending_pins (pins : PinsDriven s) : PinsDriven (swapPending s) := by
  obtain same | ⟨z, swap, -, tracks, oe, -⟩ := swapPending_cases s
  · rwa [same]
  · rw [swap]
    exact reevaluate_pins .swap _ (pins.congr tracks oe)

theorem swapPending_shifts (shifts : shiftLaw s) : shiftLaw (swapPending s) := by
  obtain same | ⟨z, swap, -, tracks, -, monitor⟩ := swapPending_cases s
  · rwa [same]
  · rw [swap]
    exact reevaluate_shifts .swap _ (shiftLaw_congr tracks (congrArg _ monitor) shifts)

theorem swapPending_levels (levels : LevelsSet s) : LevelsSet (swapPending s) := by
  obtain same | ⟨z, swap, -⟩ := swapPending_cases s
  · rwa [same]
  · rw [swap]
    exact reevaluateAll_levels .swap z

theorem Ready.swapPending (h : Ready s) : Ready (swapPending s) where
  service := (inService_congr (swapPending_lifecycle s)).trans h.service
  pins := swapPending_pins h.pins
  shifts := swapPending_shifts h.shifts

theorem InForce.swapPending (h : InForce s) : InForce (swapPending s) :=
  ⟨h.toReady.swapPending, swapPending_levels h.levels⟩

theorem InForce.editAtIndex (h : InForce s) : InForce (editAtIndex s) := by
  unfold Machine.editAtIndex
  split
  · exact h.swapPending
  · exact h

/-! ## The encoder -/

theorem Ready.takeArrival (d : Dir) (h : Ready s) : InForce (takeArrival d s) := by
  have moved : Ready (stepPosition d s) := h.congr rfl rfl rfl rfl
  have chosen : Ready (stepPosition d s).advanceChoices := h.congr rfl rfl rfl rfl
  simp only [Machine.takeArrival]
  split
  · split
    · exact (chosen.reevaluateAll .motion).swapPending
    · exact chosen.swapPending.reevaluateAll .motion
  · exact moved.reevaluateAll .motion

theorem InForce.noteFault (k : FaultKind) (d : Word24) (h : InForce s) : InForce (noteFault k d s) := h.congr rfl

theorem Ready.lowerReference (k : FaultKind) (h : Ready s) : Ready (lowerReference k s) := h.congr rfl rfl rfl rfl

theorem InForce.raiseLowering (k : FaultKind) (d : Word24) (h : InForce s) : InForce (raiseLowering k d s) := by
  simp only [Machine.raiseLowering]
  split
  · exact h.noteFault k d
  · exact ((h.noteFault k d).toReady.lowerReference k).reevaluateAll .reference

theorem InForce.sampleCount (a b : Bool) (h : InForce s) : InForce (sampleCount a b s) := by
  simp only [Machine.sampleCount]
  have taken : InForce
      (s.setCounter { s.counter with lineA := a, lineB := b, resyncCount := false }) := h.congr rfl
  split
  · exact taken
  · split
    · exact taken
    · exact taken.toReady.takeArrival _
    · exact taken.raiseLowering _ _

theorem Ready.placePosition (mode : PresetMode) (value : Nat) (p : Port) (r : Option Nat) (h : Ready s) :
    InForce (placePosition mode value p r s) :=
  Ready.reevaluateAll .preset (h.congr rfl rfl rfl rfl)

theorem InForce.driftEdge (d : Nat) (h : InForce s) : InForce (driftEdge d s) := by
  have lowered : Ready
      (Machine.lowerReference .indexDrift (Machine.noteFault .indexDrift (BitVec.ofNat 24 d) s)) :=
    (h.noteFault _ _).toReady.lowerReference _
  have chosen : Ready
      (Machine.lowerReference .indexDrift (Machine.noteFault .indexDrift (BitVec.ofNat 24 d) s)).advanceChoices :=
    lowered.congr rfl rfl rfl rfl
  simp only [Machine.driftEdge]
  split
  · split
    · exact (chosen.reevaluateAll .reference).swapPending
    · exact chosen.swapPending.reevaluateAll .reference
  · exact lowered.reevaluateAll .reference

theorem InForce.takeIndexEdge (h : InForce s) : InForce (takeIndexEdge s) := by
  unfold Machine.takeIndexEdge
  split
  · exact (h.toReady.placePosition _ _ _ _).editAtIndex
  · split
    · split
      · exact InForce.editAtIndex (h.congr rfl)
      · split
        · exact h.driftEdge _
        · exact h.editAtIndex
    · exact h.editAtIndex

theorem InForce.sampleIndex (i : Bool) (h : InForce s) : InForce (sampleIndex i s) := by
  simp only [Machine.sampleIndex]
  have taken : InForce (s.setCounter { s.counter with lineIndex := i, resyncIndex := false }) := h.congr rfl
  split
  · exact taken
  · split
    · exact taken.takeIndexEdge
    · exact taken

theorem InForce.receiversFail (l : LineSet) (h : InForce s) : InForce (receiversFail l s) := by
  simp only [Machine.receiversFail]
  split
  · exact h.congr rfl
  · split
    · exact h.congr rfl
    · split
      · exact h
      · exact InForce.raiseLowering _ _ (h.congr rfl)

/-! ## The period end (R29, R54) -/

theorem recomputeShifts_shiftLaw (s : State) : shiftLaw (recomputeShifts s) := by
  intro i
  simp [recomputeShifts]

theorem recomputeShifts_pins (pins : PinsDriven s) : PinsDriven (recomputeShifts s) := by
  intro i
  simpa [recomputeShifts] using pins i

/-- A track whose shift the speed in force does not change is as it was. -/
theorem recomputeShifts_track_of_same {i : TrackNo} (same : i ∉ shiftChanges s) :
    (recomputeShifts s).track i = s.track i := by
  have shift : leadShift s.monitor.speed (s.track i).lead = (s.track i).shift := by simpa [shiftChanges] using same
  simp [recomputeShifts, shift]

theorem motionAtPeriodEnd_levels (levels : LevelsSet s) : LevelsSet (motionAtPeriodEnd s) := by
  refine reevaluate_levels .motion fun i same => ?_
  have track := recomputeShifts_track_of_same same
  have level : (recomputeShifts s).levelOf i = s.levelOf i := by
    apply levelOf_congr <;> simp [track]
  rw [track, level]
  exact levels i

/-- Every receiver of a period end leaves levels and pins right, whatever the shifts are. -/
theorem act_pins_levels (x : PeriodReceiver) (h : PinsDriven s ∧ LevelsSet s) :
    PinsDriven (PeriodReceiver.act s x) ∧ LevelsSet (PeriodReceiver.act s x) := by
  obtain ⟨pins, levels⟩ := h
  cases x with
  | motion => exact ⟨reevaluate_pins _ _ (recomputeShifts_pins pins), motionAtPeriodEnd_levels levels⟩
  | edit =>
    simp only [PeriodReceiver.act, editAtPeriodEnd]
    split
    · exact ⟨swapPending_pins pins, swapPending_levels levels⟩
    · exact ⟨pins, levels⟩
  | overspeed =>
    refine ⟨pins.congr (by simp [PeriodReceiver.act]) (by simp [PeriodReceiver.act]), levels.congr ?_⟩
    simp [State.levelView, PeriodReceiver.act]

theorem motion_shifts (s : State) : shiftLaw (PeriodReceiver.act s .motion) :=
  reevaluate_shifts _ _ (recomputeShifts_shiftLaw s)

theorem judgeOverspeed_speed (s : State) : (judgeOverspeed s).monitor.speed = s.monitor.speed := by
  simp only [judgeOverspeed]
  split <;> rfl

/-- No receiver of a period end changes the speed or, once they are right, the shifts. -/
theorem act_shifts (x : PeriodReceiver) (shifts : shiftLaw s) : shiftLaw (PeriodReceiver.act s x) := by
  cases x with
  | motion => exact motion_shifts s
  | edit =>
    simp only [PeriodReceiver.act, editAtPeriodEnd]
    split
    · exact swapPending_shifts shifts
    · exact shifts
  | overspeed => exact shiftLaw_congr (judgeOverspeed_tracks s) (judgeOverspeed_speed s) shifts

theorem motion_mem_periodReceivers : ∀ n, PeriodReceiver.motion ∈ periodReceivers n := by decide

/-- The receivers of a period end, in any of their orders, put the shifts right and leave levels and pins right. -/
theorem periodReceivers_inForce (n : Fin 6) (service : s.inService = true) (pins : PinsDriven s) (levels : LevelsSet s) :
    InForce ((periodReceivers n).foldl PeriodReceiver.act s) := by
  have service' : ((periodReceivers n).foldl PeriodReceiver.act s).inService = true :=
    (inService_congr (foldl_keeps State.lifecycle _ act_lifecycle _ s)).trans service
  obtain ⟨pins', levels'⟩ := List.foldlRecOn (motive := fun s => PinsDriven s ∧ LevelsSet s) (periodReceivers n)
    PeriodReceiver.act ⟨pins, levels⟩ fun _ h x _ => act_pins_levels x h
  obtain ⟨before, after, order⟩ := List.append_of_mem (motion_mem_periodReceivers n)
  have shifts' : shiftLaw ((periodReceivers n).foldl PeriodReceiver.act s) := by
    rw [order, List.foldl_append, List.foldl_cons]
    exact List.foldlRecOn (motive := shiftLaw) after _ (motion_shifts _) fun _ h x _ => act_shifts x h
  exact ⟨⟨service', pins', shifts'⟩, levels'⟩

theorem InForce.closeSamplePeriod (h : InForce s) : InForce (closeSamplePeriod s) := by
  simp only [Machine.closeSamplePeriod]
  split
  · exact periodReceivers_inForce _ h.service (h.pins.congr rfl rfl) (h.levels.congr rfl)
  · exact periodReceivers_inForce _ h.service (h.pins.congr rfl rfl) (h.levels.congr rfl)

/-! ## Tracks claimed, freed and configured -/

/-- R62: a claim gives a track at most an owner, and leaves its effective mode. -/
theorem claimed_owner (x : Track) (p : Port) :
    ∃ o, x.claimed p = { x with owner := o } ∧ Track.effective { x with owner := o } = x.effective := by
  unfold Track.claimed
  cases owner : x.owner with
  | some o => exact ⟨x.owner, by simp, rfl⟩
  | none => exact ⟨_, rfl, by simp [Track.effective, owner]⟩

theorem InForce.claimed (f : TrackNo → Bool) (p : Port) (h : InForce s) :
    InForce (s.setTracks (Table.build fun i => if f i then (s.track i).claimed p else s.track i)) := by
  generalize new : s.setTracks _ = z
  have track (i : TrackNo) :
      ∃ o, z.track i = { s.track i with owner := o } ∧ (z.track i).effective = (s.track i).effective := by
    rw [← new, track_setTracks_build]
    split
    · obtain ⟨o, claimed, effective⟩ := claimed_owner (s.track i) p
      exact ⟨o, claimed, claimed ▸ effective⟩
    · exact ⟨_, rfl, rfl⟩
  refine ⟨⟨by rw [← new]; exact h.service, fun i => ?pins, fun i => ?shifts⟩, fun i => ?levels⟩ <;>
    obtain ⟨o, same, effective⟩ := track i
  case pins => rw [same, ← new]; exact h.pins i
  case shifts => rw [same, ← new]; exact h.shifts i
  case levels =>
    have level : z.levelOf i = s.levelOf i := by
      apply levelOf_congr i (by rw [← new]; rfl) (by rw [← new]; rfl) effective <;> rw [same]
    rw [level, same]
    exact h.levels i

/-- R64: a release changes of a track its owner and its held level. -/
theorem InForce.freeTracks (f : TrackNo → Bool) (p : Port) (cause : Byte) (h : InForce s) :
    InForce (freeTracks f p cause s) := by
  simp only [Machine.freeTracks]
  refine Ready.reevaluate .owner ⟨h.service, fun i => ?pins, fun i => ?shifts⟩ fun i out => ?others
  case pins =>
    have pin := h.pins i
    simp only [produce_track, track_setTracks_build]
    split <;> exact pin
  case shifts =>
    have shift := h.shifts i
    simp only [produce_track, track_setTracks_build]
    split <;> exact shift
  case others =>
    have outside : ¬ f i = true := mt (mem_tracksWhere f i).2 out
    have level := h.levels i
    simp only [produce_track, produce_levelOf, track_setTracks_build, if_neg outside]
    rw [level, eq_comm]
    apply levelOf_congr <;> simp [outside]

/-- R68: the shift of a configured track is its lead's at the speed in force. -/
theorem configured_shift {x : Track} {v : Int} (p : Port) (y : TrackParams) (shift : x.shift = leadShift v x.lead) :
    (x.configured v p y).shift = leadShift v (x.configured v p y).lead := by
  simp only [Track.configured]
  split
  · next same => rw [same, shift]
  · rfl

theorem InForce.configured (i : TrackNo) (p : Port) (y : TrackParams) (h : InForce s) :
    InForce (Machine.reevaluate .mode [i] (s.setTrack i ((s.track i).configured s.monitor.speed p y))) := by
  refine Ready.reevaluate .mode ⟨h.service, fun j => ?pins, fun j => ?shifts⟩ fun j out => ?others
  case pins =>
    rw [track_setTrack]
    split
    · next same => subst same; exact h.pins j
    · exact h.pins j
  case shifts =>
    rw [track_setTrack]
    split
    · exact configured_shift p y (h.shifts i)
    · exact h.shifts j
  case others =>
    have other : j ≠ i := by simpa using out
    have track : (s.setTrack i ((s.track i).configured s.monitor.speed p y)).track j = s.track j := by
      rw [track_setTrack, if_neg other]
    have level : (s.setTrack i ((s.track i).configured s.monitor.speed p y)).levelOf j = s.levelOf j := by
      apply levelOf_congr <;> simp [track]
    rw [level, track]
    exact h.levels j

/-! ## The requests -/

/-- The requests that can change a level, a pin or a shift, or what these are read from. -/
def Request.touchesOutputs : Request → Bool
  | .preset | .setAxis | .claimTracks | .releaseTracks | .setTrack | .commit => true
  | _ => false

theorem handle_outputView {r : Request} (inert : r.touchesOutputs = false) (p : Port) (payload : List Byte)
    (running : s.lifecycle = .running) : (handle r p payload s).state.outputView = s.outputView := by
  cases r <;> simp only [handle]
  case preset | setAxis | claimTracks | releaseTracks | setTrack | commit => exact absurd inert (by decide)
  case identify => rfl
  case openPort => unfold reqOpen; split <;> rfl
  case closePort => unfold reqClose; split <;> rfl
  case readStatus => unfold reqReadStatus; simp only []; (repeat' split) <;> rfl
  case clearFault => unfold reqClearFault; (repeat' split) <;> rfl
  case restart =>
    have service : (s.setLifecycle (.restarting p)).inService = s.inService := by simp [State.inService, running]
    unfold reqRestart
    (repeat' split)
    · rfl
    · rfl
    · simp only [replyOk, State.outputView, service]; rfl
  case claimAxis => unfold reqClaimAxis; (repeat' split) <;> rfl
  case releaseAxis => unfold reqReleaseAxis withdrawPreset; (repeat' split) <;> rfl
  case cancelPreset => unfold reqCancelPreset withdrawPreset; (repeat' split) <;> rfl
  case readAxis => rfl
  case clearAxisFault => unfold reqClearAxisFault; (repeat' split) <;> rfl
  case readTracks => rfl
  case openEdit => unfold reqOpenEdit; simp only []; (repeat' split) <;> rfl
  case writeWindows => unfold reqWriteWindows; simp only []; (repeat' split) <;> rfl
  case readWindows => unfold reqReadWindows; (repeat' split) <;> rfl
  case abortEdit => unfold reqAbortEdit withdrawCommit endSession; (repeat' split) <;> rfl
  case storeSlot => unfold reqStoreSlot; simp only []; (repeat' split) <;> rfl
  case eraseSlot => unfold reqEraseSlot; (repeat' split) <;> rfl
  case loadSlot => unfold reqLoadSlot; simp only []; (repeat' split) <;> rfl
  case readSlot => unfold reqReadSlot; split <;> rfl
  case subscribe => unfold reqSubscribe; split <;> rfl
  case fetchEvents => unfold reqFetchEvents; simp only []; split <;> rfl

theorem InForce.changeGeometry (x : AxisConfig) (h : InForce s) : InForce (changeGeometry x s) := by
  simp only [Machine.changeGeometry]
  refine Ready.reevaluateAll .reference ⟨?_, recomputeShifts_pins (h.pins.congr ?_ ?_), recomputeShifts_shiftLaw _⟩
  · rw [← h.service]
    exact inService_congr (by simp)
  · simp
  · simp

theorem InForce.swapWith (e : EditSession) (tag : Word16) (h : InForce s) : InForce (swapWith e tag s) :=
  Ready.reevaluateAll .swap (h.toReady.congr rfl rfl rfl rfl)

theorem InForce.handle (r : Request) (p : Port) (payload : List Byte) (running : s.lifecycle = .running) (h : InForce s) :
    InForce (handle r p payload s).state := by
  by_cases inert : r.touchesOutputs = false
  · exact h.congr (handle_outputView inert p payload running)
  · cases r <;> simp only [Request.touchesOutputs, not_true_eq_false] at inert <;> simp only [Machine.handle]
    case preset =>
      unfold reqPreset
      split
      · exact h
      split
      · exact h
      split
      · exact h
      split
      · exact h.toReady.placePosition _ _ _ _
      · exact h.congr rfl
    case setAxis =>
      unfold reqSetAxis
      split
      · exact h
      split
      · exact h
      split
      · exact h
      split
      · exact h
      split
      · exact h.congr rfl
      · exact h.changeGeometry _
    case claimTracks =>
      simp only [reqClaimTracks]
      split
      · exact h
      split
      · exact h
      split
      · exact h
      refine (h.claimed (inMask (word16 payload 0)) p).congr ?_
      simp only [replyOk, produceIf]
      split <;> rfl
    case releaseTracks =>
      simp only [reqReleaseTracks]
      split
      · exact h
      split
      · exact h
      · exact h.freeTracks _ _ _
    case setTrack =>
      unfold reqSetTrack
      split
      · exact h
      split
      · exact h
      split
      · exact h.configured _ _ _
      · exact h
    case commit =>
      simp only [reqCommit]
      split
      · exact h
      split
      · exact h
      split
      · exact h
      split
      · exact h
      split
      · exact h.swapWith _ _
      · exact h.congr rfl

/-! ## Port resets and the outputs -/

theorem resetAxisOf_outputView (p : Port) (c : ResetCause) (s : State) :
    (resetAxisOf p c s).outputView = s.outputView := by
  unfold resetAxisOf
  split <;> rfl

theorem InForce.resetTracksOf (p : Port) (c : ResetCause) (h : InForce s) : InForce (resetTracksOf p c s) := by
  unfold Machine.resetTracksOf
  split
  · exact h
  · exact h.freeTracks _ _ _

theorem resetSessionOf_outputView (p : Port) (s : State) : (resetSessionOf p s).outputView = s.outputView := by
  unfold resetSessionOf
  split <;> rfl

theorem InForce.portReset (p : Port) (c : ResetCause) (h : InForce s) : InForce (portReset p c s) := by
  have left : InForce (s.setPort p { s.port p with state := c.portState }) := h.congr rfl
  have axis := left.congr (resetAxisOf_outputView p c _)
  have session := (axis.resetTracksOf p c).congr (resetSessionOf_outputView p _)
  exact session.congr rfl

theorem drivePins_pins (s : State) : PinsDriven (drivePins s) := fun i => by simp [drivePins]

/-- No level is read from a pin. -/
theorem drivePins_levelOf (s : State) (i : TrackNo) : (drivePins s).levelOf i = s.levelOf i := by
  apply levelOf_congr <;> simp [drivePins, Track.effective]

/-- Driving the pins asks nothing of what they were. -/
theorem drivePins_inForce (service : s.inService = true) (shifts : shiftLaw s) (levels : LevelsSet s) :
    InForce (drivePins s) where
  service := service
  pins := drivePins_pins s
  shifts := fun i => by simpa [drivePins] using shifts i
  levels := fun i => by rw [drivePins_levelOf, ← levels i]; simp [drivePins]

theorem InForce.changeOe (level : Bool) (h : InForce s) : InForce (changeOe level s) := by
  unfold Machine.changeOe
  split
  · exact h
  rw [if_pos h.service]
  have driven : InForce (drivePins (s.setOe level)) :=
    drivePins_inForce h.service (shiftLaw_congr rfl rfl h.shifts) (h.levels.congr rfl)
  exact driven.congr rfl

/-! ## The power-up load -/

theorem settleLevels_levels (s : State) : LevelsSet (settleLevels s) := by
  intro i
  unfold settleLevels
  rw [drivePins_levelOf]
  have level : (s.setTracks (Table.build fun i => { s.track i with level := s.levelOf i })).levelOf i = s.levelOf i := by
    apply levelOf_congr <;> simp [Track.effective]
  rw [level]
  simp [drivePins]

/-- What the image of the power-up load, and the settling of levels after it, leave of the speed and the shifts. -/
theorem endLoad_speed_shift (s : State) (i : TrackNo) :
    (endLoad s).monitor.speed = s.monitor.speed ∧ ((endLoad s).track i).shift = (s.track i).shift := by
  unfold endLoad
  cases bootImage s <;> simp [settleLevels, drivePins, applyImage, Monitor.firstPeriod]

/-- R59, R116: the end of the load brings everything into force. -/
theorem endLoad_inForce (boot : bootLaw s) (closed : s.inService = false) : InForce (endLoad s) := by
  obtain ⟨-, -, -, -, -, -, -, -, still, -, -, tracks⟩ := boot closed
  refine ⟨⟨rfl, ?_, fun i => ?_⟩, ?_⟩
  · exact (drivePins_pins _).congr rfl rfl
  · obtain ⟨speed, shift⟩ := endLoad_speed_shift s i
    obtain ⟨-, unshifted, -⟩ := tracks i
    simp [speed, still, shift, unshifted, leadShift]
  · exact (settleLevels_levels _).congr rfl

/-! ## The time before service is kept by every operation -/

/-- A port record that is CLOSED before service keeps the law, whatever else it takes. -/
theorem bootLaw_setPort (p : Port) (x : PortRec) (closes : s.inService = false → x.state = .closed) (boot : bootLaw s) :
    bootLaw (s.setPort p x) := by
  intro closed
  obtain ⟨ports, rest⟩ := boot closed
  refine ⟨fun q => ?_, rest⟩
  rw [port_setPort]
  split
  · exact closes closed
  · exact ports q

theorem bootLaw_deviceReset (s : State) : bootLaw (deviceReset s) := fun _ =>
  ⟨fun p => by rw [deviceReset_port]; rfl, rfl, rfl, rfl, rfl, rfl, rfl, rfl, rfl, rfl, rfl, fun i => by
    have track : (deviceReset s).track i = Track.reset := reset_track i
    rw [track]
    exact ⟨rfl, rfl, rfl⟩⟩

theorem bootLaw_beginLoad (straps : BitVec 2) (reset : s.lifecycle = .inReset) (boot : bootLaw s) :
    bootLaw (beginLoad straps s) := by
  have service : (beginLoad straps s).inService = s.inService := by simp [beginLoad, State.inService, reset]
  refine bootLaw_congr ?_ boot
  simp only [State.bootView, service]
  rfl

theorem completeStore_idle (b : Bool) (idle : s.store.op = none) : completeStore b s = s := by
  unfold completeStore
  rw [idle]

theorem completeErase_idle (idle : s.store.op = none) : completeErase s = s := by
  unfold completeErase
  rw [idle]

/-- An operation that leaves where the part stands keeps the law when it keeps it before service. -/
theorem bootLaw_of_lifecycle (same : t.lifecycle = s.lifecycle) (before : s.inService = false → bootLaw t) : bootLaw t :=
  fun closed => before ((inService_congr same).symm.trans closed) closed

/-- An operation that acts in service only. -/
theorem bootLaw_of_service (same : t.lifecycle = s.lifecycle) (service : s.inService = true) : bootLaw t :=
  bootLaw_of_inService ((inService_congr same).trans service)

theorem handle_inService (r : Request) (p : Port) (payload : List Byte) (running : s.lifecycle = .running) :
    (handle r p payload s).state.inService = true := by
  have service : s.inService = true := by simp [State.inService, running]
  by_cases inert : r.touchesOutputs = false
  · exact (congrArg OutputView.service (handle_outputView inert p payload running)).trans service
  · refine (inService_congr ?_).trans service
    cases r <;> simp only [Request.touchesOutputs, not_true_eq_false] at inert <;> simp only [handle]
    case preset => unfold reqPreset; (repeat' split) <;> simp [refuseRange, refuse, refuseNoClaim, replyOk, replyPending]
    case setAxis => unfold reqSetAxis; (repeat' split) <;> simp [refuseRange, refuse, refuseNoClaim, replyOk]
    case claimTracks => simp only [reqClaimTracks]; (repeat' split) <;> simp [refuseRange, refuse, replyOk]
    case releaseTracks => simp only [reqReleaseTracks]; (repeat' split) <;> simp [refuseRange, refuse, replyOk]
    case setTrack => unfold reqSetTrack; (repeat' split) <;> simp [refuseRange, refuse, replyOk]
    case commit =>
      simp only [reqCommit]
      (repeat' split) <;> simp [refuseRange, refuse, refuseNoSession, replyOk, replyPending]

/-- The law of the time before service survives every operation by itself. -/
theorem bootLaw_kept : Kept bootLaw where
  port s p x same _ boot := bootLaw_setPort p x (fun closed => by
    obtain ⟨ports, -⟩ := boot closed
    exact same.trans (ports p)) boot
  request r p payload s running _ _ _ := bootLaw_of_inService (handle_inService r p payload running)
  reset p c s opened boot := bootLaw_of_service (portReset_lifecycle s p c) (inService_of_isOpen boot opened)
  close s p _ boot := bootLaw_setPort p _ (fun _ => rfl) boot
  device s _ := bootLaw_deviceReset s
  load straps s reset boot := bootLaw_beginLoad straps reset boot
  loaded s _ _ := bootLaw_of_inService rfl
  count a b s service _ := bootLaw_of_service (sampleCount_lifecycle s a b) service
  index i s service _ := bootLaw_of_service (sampleIndex_lifecycle s i) service
  fail l s boot := bootLaw_of_lifecycle (receiversFail_lifecycle s l) fun closed => by
    rw [receiversFail_beforeService closed]
    exact bootLaw_congr rfl boot
  heal l s boot := bootLaw_of_lifecycle (receiversHeal_lifecycle s l) fun closed => by
    rw [receiversHeal_noStart (.inl closed)]
    exact bootLaw_congr rfl boot
  restore s due boot := bootLaw_of_lifecycle (restoreSignal_lifecycle s) fun closed => by
    obtain ⟨-, -, -, -, -, -, -, -, -, noLoss, -⟩ := boot closed
    exact absurd due (not_holdDue (.inl noLoss))
  period s due _ := bootLaw_of_service (closeSamplePeriod_lifecycle s) ((periodDue_iff s).1 due).1
  deadline s due boot := bootLaw_of_lifecycle (withdrawCommit_lifecycle s 0) fun closed => by
    obtain ⟨-, -, -, -, -, -, noSession, -⟩ := boot closed
    obtain ⟨e, -, session, -⟩ := (commitDue_iff s).1 due
    exact absurd (noSession.symm.trans session) (by simp)
  stored b s boot := bootLaw_of_lifecycle (completeStore_lifecycle s b) fun closed => by
    obtain ⟨-, -, -, -, -, -, -, idle, -⟩ := boot closed
    rwa [completeStore_idle b idle]
  erased s boot := bootLaw_of_lifecycle (completeErase_lifecycle s) fun closed => by
    obtain ⟨-, -, -, -, -, -, -, idle, -⟩ := boot closed
    rwa [completeErase_idle idle]
  outputs l s boot := by
    unfold changeOe
    split
    · exact boot
    split
    · next service => exact bootLaw_of_inService service
    · exact bootLaw_congr rfl boot

/-! ## Levels, pins and shifts are kept by every operation -/

/-- The invariant: the law of the time before service, and levels, pins and shifts in force from then on. -/
structure OutputsKept (s : State) : Prop where
  boot : bootLaw s
  inForce : s.inService = true → InForce s

theorem outputsKept_iff : OutputsKept s ↔ bootLaw s ∧ pinLaw s ∧ levelLaw s ∧ shiftLaw s := by
  constructor
  · rintro ⟨boot, inForce⟩
    refine ⟨boot, fun service => (inForce service).pins, fun service => (inForce service).levels, ?_⟩
    cases service : s.inService with
    | true => exact (inForce service).shifts
    | false => exact shiftLaw_of_boot boot service
  · rintro ⟨boot, pins, levels, shifts⟩
    exact ⟨boot, fun service => ⟨⟨service, pins service, shifts⟩, levels service⟩⟩

/-- An operation that leaves where the part stands, and keeps levels, pins and shifts in force. -/
theorem OutputsKept.step (h : OutputsKept s) (boot : bootLaw t) (same : t.lifecycle = s.lifecycle)
    (keeps : InForce s → InForce t) : OutputsKept t :=
  ⟨boot, fun service => keeps (h.inForce ((inService_congr same).symm.trans service))⟩

/-- An operation that touches nothing that levels, pins and shifts are read from. -/
theorem OutputsKept.same (h : OutputsKept s) (boot : bootLaw t) (same : t.outputView = s.outputView) : OutputsKept t :=
  ⟨boot, fun service => (h.inForce ((congrArg OutputView.service same).symm.trans service)).congr same⟩

theorem outputsKept_kept : Kept OutputsKept where
  port s p x state cause h := h.same (bootLaw_kept.port s p x state cause h.boot) rfl
  request r p payload s running admits length h :=
    ⟨bootLaw_kept.request r p payload s running admits length h.boot, fun _ =>
      (h.inForce (by simp [State.inService, running])).handle r p payload running⟩
  reset p c s opened h :=
    h.step (bootLaw_kept.reset p c s opened h.boot) (portReset_lifecycle s p c) (InForce.portReset p c)
  close s p notOpen h := h.same (bootLaw_kept.close s p notOpen h.boot) rfl
  device s h := ⟨bootLaw_deviceReset s, fun service => absurd service Bool.false_ne_true⟩
  load straps s reset h := ⟨bootLaw_beginLoad straps reset h.boot, fun service => absurd service Bool.false_ne_true⟩
  loaded s loading h :=
    ⟨bootLaw_of_inService rfl, fun _ => endLoad_inForce h.boot (by simp [State.inService, loading])⟩
  count a b s service h := h.step (bootLaw_kept.count a b s service h.boot) (sampleCount_lifecycle s a b)
    (InForce.sampleCount a b)
  index i s service h := h.step (bootLaw_kept.index i s service h.boot) (sampleIndex_lifecycle s i) (InForce.sampleIndex i)
  fail l s h := h.step (bootLaw_kept.fail l s h.boot) (receiversFail_lifecycle s l) (InForce.receiversFail l)
  heal l s h := h.same (bootLaw_kept.heal l s h.boot) rfl
  restore s due h := h.same (bootLaw_kept.restore s due h.boot) rfl
  period s due h := h.step (bootLaw_kept.period s due h.boot) (closeSamplePeriod_lifecycle s) InForce.closeSamplePeriod
  deadline s due h := h.same (bootLaw_kept.deadline s due h.boot) (by
    unfold withdrawCommit
    (repeat' split) <;> rfl)
  stored b s h := h.same (bootLaw_kept.stored b s h.boot) (by
    unfold completeStore
    (repeat' split) <;> rfl)
  erased s h := h.same (bootLaw_kept.erased s h.boot) (by
    unfold completeErase
    split <;> rfl)
  outputs l s h := h.step (bootLaw_kept.outputs l s h.boot) (by
    unfold changeOe
    (repeat' split) <;> rfl) (InForce.changeOe l)

/-- Settles O55: the four laws are the invariant `OutputsKept`, which every operation keeps. -/
theorem everyStepKeepsLevelsPinsAndShifts : Obligations.EveryStepKeepsLevelsPinsAndShifts := by
  intro s t laws stepped
  have kept : OutputsKept t :=
    outputsKept_kept.step (fun s l h => ?queue) (fun s x _ h => ?time) (outputsKept_iff.2 laws) stepped
  exact outputsKept_iff.1 kept
  case queue => exact h.same (bootLaw_congr rfl h.boot) rfl
  case time => exact h.same (bootLaw_congr rfl h.boot) rfl

end Sys2Proof.Machine
end

section
/-! PROOFS. The validity check (R42 to R44, Table 3-2): one window of the check as the first of five tests that fails, each
test as the rule states it, and the check of a whole list as its first failure. -/

namespace Sys2Proof.Machine

variable {m : Nat} {ws : List Window}

/-! ## One window of the check -/

/-- The tests of one window, in the order of Table 3-2. -/
def windowTests : List Reason := [.edgeRange, .zeroWidth, .wrapNotLast, .order, .overlap]

/-- Does window `w` fail the test, as the check makes it? `lower` holds window 0 and the window before, `last` tells that no
window follows. -/
def testFails (m : Nat) (lower : Option (Window × Window)) (last : Bool) (w : Window) : Reason → Bool
  | .tooMany => false
  | .edgeRange => m ≤ w.on || m ≤ w.off
  | .zeroWidth => w.on = w.off
  | .wrapNotLast => w.wraps && ! last
  | .order => lower.any fun (_, prev) => w.on ≤ prev.on
  | .overlap => lower.any fun (first, prev) => overlaps first prev w

/-- The check reports the first test that the window fails, and goes on to the next window where it fails none. -/
theorem checkFrom_cons (m : Nat) (lower : Option (Window × Window)) (i : Nat) (w : Window) (rest : List Window) :
    checkFrom m lower i (w :: rest) =
      match windowTests.find? (testFails m lower rest.isEmpty w) with
      | some r => some (r, i)
      | none => checkFrom m (some ((lower.map Prod.fst).getD w, w)) (i + 1) rest := by
  conv => lhs; unfold checkFrom
  simp only [windowTests, List.find?, testFails]
  cases edge : decide (m ≤ w.on) || decide (m ≤ w.off)
  case true => rfl
  by_cases zero : w.on = w.off
  · simp [zero]
  cases wrap : w.wraps && ! rest.isEmpty
  case true => simp [zero]
  cases lower with
  | none => simp [zero]
  | some lower =>
    obtain ⟨first, prev⟩ := lower
    by_cases order : w.on ≤ prev.on
    · simp [zero, order]
    · cases overlap : overlaps first prev w <;> simp [zero, order, overlap]

/-! ## The windows before the one under test -/

/-- Window `i` passes every test. -/
def PassesTests (m : Nat) (ws : List Window) (i : Nat) : Prop := ∀ r, ¬ FailsTest m ws i r

/-- Where no window up to `n` fails ORDER, the ONs rise up to there. -/
theorem on_lt_of_order {n : Nat} (rising : ∀ k, k ≤ n → ¬ FailsTest m ws k .order) {j k : Nat} (lt : j < k) (le : k ≤ n)
    {v w : Window} (hv : ws[j]? = some v) (hw : ws[k]? = some w) : v.on < w.on := by
  induction k generalizing w with
  | zero => omega
  | succ k ih =>
    have next (u : Window) (hu : ws[k]? = some u) : u.on < w.on :=
      Nat.lt_of_not_le fun not => rising (k + 1) le ⟨u, w, by omega, hu, hw, not⟩
    obtain rfl | lt' : j = k ∨ j < k := by omega
    · exact next v hv
    · have bound : k < ws.length := by
        have := (List.getElem?_eq_some_iff.1 hw).1
        omega
      have hu := List.getElem?_eq_getElem bound
      exact Nat.lt_trans (ih lt' (by omega) hu) (next _ hu)

/-- A window that passes the tests and is not the last has its ON below its OFF. -/
theorem on_lt_off {j : Nat} {v : Window} (passes : PassesTests m ws j) (hv : ws[j]? = some v) (more : j + 1 < ws.length) :
    v.on < v.off := by
  have width : v.on ≠ v.off := fun zero => passes .zeroWidth ⟨v, hv, zero⟩
  have straight : ¬ v.off < v.on := fun wrap => passes .wrapNotLast ⟨v, hv, wrap, more⟩
  omega

theorem covers_of_lt {w : Window} (lt : w.on < w.off) (e : Nat) : w.covers e = true ↔ w.on ≤ e ∧ e < w.off := by
  simp [Window.covers, lt]

theorem covers_on {w : Window} (width : w.on ≠ w.off) : w.covers w.on = true := by
  unfold Window.covers
  split
  · simpa using ‹w.on < w.off›
  · rw [if_pos (by omega)]
    simp

theorem covers_cases {w : Window} {e : Nat} (covers : w.covers e = true) : w.on ≤ e ∨ (w.wraps = true ∧ e < w.off) := by
  unfold Window.covers at covers
  split at covers
  · simp at covers
    exact .inl covers.1
  · split at covers
    · next wraps =>
      simp only [Bool.or_eq_true, decide_eq_true_eq] at covers
      simpa [Window.wraps, wraps] using covers
    · cases covers

/-- Window 0 and the window before window `i`, as the check hands them on. -/
def IsLower (ws : List Window) (i : Nat) : Option (Window × Window) → Prop
  | none => i = 0
  | some (first, prev) => 0 < i ∧ ws[0]? = some first ∧ ws[i - 1]? = some prev

/-- R44: of windows that have passed, the first begins lowest and the last ends highest. -/
theorem first_prev_bounds {i : Nat} {first prev : Window} (passed : ∀ j, j < i → PassesTests m ws j) (inside : i < ws.length)
    (lower : IsLower ws i (some (first, prev))) {j : Nat} {v : Window} (lt : j < i) (hv : ws[j]? = some v) :
    first.on ≤ v.on ∧ v.off ≤ prev.off := by
  obtain ⟨pos, hfirst, hprev⟩ := lower
  have rising : ∀ k, k ≤ i - 1 → ¬ FailsTest m ws k .order := fun k le => passed k (by omega) .order
  constructor
  · obtain rfl | pos' : j = 0 ∨ 0 < j := by omega
    · exact Nat.le_of_eq (congrArg Window.on (Option.some.inj (hfirst.symm.trans hv)))
    · exact Nat.le_of_lt (on_lt_of_order rising pos' (by omega) hfirst hv)
  · obtain rfl | lt' : j = i - 1 ∨ j < i - 1 := by omega
    · exact Nat.le_of_eq (congrArg Window.off (Option.some.inj (hv.symm.trans hprev)))
    · have on := on_lt_of_order rising lt' (Nat.le_refl _) hv hprev
      have width := on_lt_off (passed _ (by omega)) hprev (by omega)
      have width' := on_lt_off (passed j lt) hv (by omega)
      refine Nat.le_of_not_lt fun beyond =>
        passed (i - 1) (by omega) .overlap ⟨prev, hprev, j, v, lt', hv, fun disjoint => disjoint prev.on ?_⟩
      exact ⟨(covers_of_lt width' _).2 (by omega), covers_on (by omega)⟩

/-- R44: it is enough to compare a window with window 0 and the window before. -/
theorem overlaps_iff {i : Nat} {first prev w : Window} (passed : ∀ j, j < i → PassesTests m ws j) (hw : ws[i]? = some w)
    (lower : IsLower ws i (some (first, prev))) (width : w.on ≠ w.off) (rises : prev.on < w.on) :
    overlaps first prev w = true ↔ FailsTest m ws i .overlap := by
  have inside : i < ws.length := (List.getElem?_eq_some_iff.1 hw).1
  have bounds := fun {j v} => first_prev_bounds passed inside lower (j := j) (v := v)
  obtain ⟨pos, hfirst, hprev⟩ := lower
  have straight {j : Nat} {v : Window} (lt : j < i) (hv : ws[j]? = some v) := on_lt_off (passed j lt) hv (by omega)
  simp only [overlaps, Bool.or_eq_true, Bool.and_eq_true, decide_eq_true_eq]
  constructor
  · rintro (meetsPrev | ⟨wraps, meetsFirst⟩)
    · refine ⟨w, hw, i - 1, prev, by omega, hprev, fun disjoint => disjoint w.on ⟨?_, covers_on width⟩⟩
      exact (covers_of_lt (straight (by omega) hprev) _).2 ⟨by omega, meetsPrev⟩
    · have first_on := covers_on (Nat.ne_of_lt (straight pos hfirst))
      refine ⟨w, hw, 0, first, pos, hfirst, fun disjoint => disjoint first.on ⟨first_on, ?_⟩⟩
      have wraps' : w.off < w.on := by simpa [Window.wraps] using wraps
      simp [Window.covers, wraps', Nat.lt_asymm wraps', meetsFirst]
  · rintro ⟨w', hw', j, v, lt, hv, meet⟩
    obtain rfl := Option.some.inj (hw.symm.trans hw')
    obtain ⟨low, high⟩ := bounds lt hv
    simp only [disjointWindows, Classical.not_forall, Classical.not_not] at meet
    obtain ⟨e, inV, inW⟩ := meet
    obtain ⟨onLe, ltOff⟩ := (covers_of_lt (straight lt hv) e).1 inV
    obtain fromOn | ⟨wraps, below⟩ := covers_cases inW
    · exact .inl (by omega)
    · exact .inr ⟨wraps, by omega⟩

/-! ## The tests of the check are the tests of Table 3-2 -/

theorem window_of_drop {i : Nat} {w : Window} {rest : List Window} (here : ws.drop i = w :: rest) : ws[i]? = some w := by
  rw [← List.head?_drop, here]
  rfl

/-- Every test but OVERLAP is made as the rule states it. -/
theorem testFails_iff {i : Nat} {w : Window} {rest : List Window} {lower : Option (Window × Window)}
    (here : ws.drop i = w :: rest) (isLower : IsLower ws i lower) {r : Reason} (other : r ≠ .overlap) :
    testFails m lower rest.isEmpty w r = true ↔ FailsTest m ws i r := by
  have hw := window_of_drop here
  have length : ws.length = i + 1 + rest.length := by
    have := congrArg List.length here
    simp only [List.length_drop, List.length_cons] at this
    omega
  cases r with
  | overlap => exact absurd rfl other
  | tooMany => simp [testFails, FailsTest]
  | edgeRange => simp [testFails, FailsTest, hw]
  | zeroWidth => simp [testFails, FailsTest, hw]
  | wrapNotLast => simp [testFails, FailsTest, hw, Window.wraps, length, List.length_pos_iff]
  | order =>
    cases lower with
    | none =>
      obtain rfl : i = 0 := isLower
      simp [testFails, FailsTest]
    | some lower =>
      obtain ⟨first, prev⟩ := lower
      obtain ⟨pos, -, hprev⟩ := isLower
      simp [testFails, FailsTest, hw, hprev, pos]

/-- OVERLAP is made as the rule states it on a window that has passed the tests before. -/
theorem testFails_overlap {i : Nat} {w : Window} {rest : List Window} {lower : Option (Window × Window)}
    (here : ws.drop i = w :: rest) (isLower : IsLower ws i lower) (passed : ∀ j, j < i → PassesTests m ws j)
    (width : ¬ FailsTest m ws i .zeroWidth) (order : ¬ FailsTest m ws i .order) :
    testFails m lower rest.isEmpty w .overlap = true ↔ FailsTest m ws i .overlap := by
  have hw := window_of_drop here
  cases lower with
  | none =>
    obtain rfl : i = 0 := isLower
    simp [testFails, FailsTest]
  | some lower =>
    obtain ⟨first, prev⟩ := lower
    obtain ⟨pos, hfirst, hprev⟩ := isLower
    have width' : w.on ≠ w.off := fun zero => width ⟨w, hw, zero⟩
    have rises : prev.on < w.on := Nat.lt_of_not_le fun not => order ⟨prev, w, pos, hprev, hw, not⟩
    exact overlaps_iff passed hw ⟨pos, hfirst, hprev⟩ width' rises

/-! ## The first failure of a list -/

/-- Window `i` fails the test of `r`, passes the tests `pre`, and every window of lower index passes every test. -/
def FirstFailure (m : Nat) (ws : List Window) (pre : List Reason) (r : Reason) (i : Nat) : Prop :=
  FailsTest m ws i r ∧ (∀ q ∈ pre, ¬ FailsTest m ws i q) ∧ ∀ j, j < i → PassesTests m ws j

/-- A list has one first failure. -/
theorem FirstFailure.unique {pre post pre' post' : List Reason} {r r' : Reason} {i i' : Nat}
    (split : pre ++ r :: post = pre' ++ r' :: post') (h : FirstFailure m ws pre r i) (h' : FirstFailure m ws pre' r' i') :
    r = r' ∧ i = i' := by
  obtain ⟨fails, before, lower⟩ := h
  obtain ⟨fails', before', lower'⟩ := h'
  obtain rfl : i = i' :=
    Nat.le_antisymm (Nat.le_of_not_lt fun gt => lower i' gt r' fails') (Nat.le_of_not_lt fun lt => lower' i lt r fails)
  refine ⟨?_, rfl⟩
  obtain ⟨mid, rfl, rest⟩ | ⟨mid, rfl, rest⟩ := List.append_eq_append_iff.1 split
  · cases mid with
    | nil => exact (List.cons.inj rest).1
    | cons q mid =>
      obtain rfl := (List.cons.inj rest).1
      exact absurd fails (before' r (by simp))
  · cases mid with
    | nil => exact (List.cons.inj rest).1.symm
    | cons q mid =>
      obtain rfl := (List.cons.inj rest).1
      exact absurd fails' (before r' (by simp))

/-- OVERLAP is the last test. -/
theorem overlap_last {pre post : List Reason} {r : Reason} (split : windowTests = pre ++ r :: post) :
    .overlap ∉ pre ∧ (r = .overlap → .zeroWidth ∈ pre ∧ .order ∈ pre) := by
  have followed : windowTests.Pairwise fun q _ => q ≠ .overlap := by decide
  rw [split, List.pairwise_append, List.pairwise_cons] at followed
  obtain ⟨-, ⟨notLast, -⟩, before⟩ := followed
  refine ⟨fun mem => before _ mem r (by simp) rfl, ?_⟩
  rintro rfl
  obtain rfl : post = [] := List.eq_nil_iff_forall_not_mem.2 fun q mem => notLast q mem rfl
  have zero : .zeroWidth ∈ windowTests := by decide
  have order : .order ∈ windowTests := by decide
  rw [split] at zero order
  exact ⟨by simpa using zero, by simpa using order⟩

theorem notMem_before {pre post : List Reason} {r : Reason} (split : windowTests = pre ++ r :: post) : r ∉ pre := by
  have nodup : windowTests.Pairwise (· ≠ ·) := by decide
  rw [split, List.pairwise_append] at nodup
  obtain ⟨-, -, before⟩ := nodup
  exact fun mem => before r mem r (by simp) rfl

/-- The tests before a test are given by it. -/
theorem before_unique {pre post pre' post' : List Reason} {r : Reason} (split : windowTests = pre ++ r :: post)
    (split' : windowTests = pre' ++ r :: post') : pre = pre' := by
  have notMem := notMem_before split
  have notMem' := notMem_before split'
  obtain ⟨mid, rfl, rest⟩ | ⟨mid, rfl, rest⟩ := List.append_eq_append_iff.1 (split.symm.trans split')
  · cases mid with
    | nil => simp
    | cons q mid =>
      obtain rfl := (List.cons.inj rest).1
      exact absurd (by simp) notMem'
  · cases mid with
    | nil => simp
    | cons q mid =>
      obtain rfl := (List.cons.inj rest).1
      exact absurd (by simp) notMem

/-- The first test that the check finds failed is the first that fails. -/
theorem find_test_some {i : Nat} {w : Window} {rest : List Window} {lower : Option (Window × Window)}
    (here : ws.drop i = w :: rest) (isLower : IsLower ws i lower) (passed : ∀ j, j < i → PassesTests m ws j) {r : Reason}
    (found : windowTests.find? (testFails m lower rest.isEmpty w) = some r) :
    ∃ pre post, windowTests = pre ++ r :: post ∧ FirstFailure m ws pre r i := by
  obtain ⟨fails, pre, post, split, before⟩ := List.find?_eq_some_iff_append.1 found
  obtain ⟨notBefore, tested⟩ := overlap_last split
  have passes (q : Reason) (mem : q ∈ pre) : ¬ FailsTest m ws i q := fun fails => by
    have other : q ≠ .overlap := fun is => notBefore (is ▸ mem)
    have passes := before q mem
    rw [(testFails_iff here isLower other).2 fails] at passes
    cases passes
  refine ⟨pre, post, split, ?_, passes, passed⟩
  by_cases is : r = .overlap
  · subst is
    obtain ⟨zero, order⟩ := tested rfl
    exact (testFails_overlap here isLower passed (passes _ zero) (passes _ order)).1 fails
  · exact (testFails_iff here isLower is).1 fails

/-- Where the check finds no test failed, the window passes every test. -/
theorem find_test_none {i : Nat} {w : Window} {rest : List Window} {lower : Option (Window × Window)}
    (here : ws.drop i = w :: rest) (isLower : IsLower ws i lower) (passed : ∀ j, j < i → PassesTests m ws j)
    (found : windowTests.find? (testFails m lower rest.isEmpty w) = none) : PassesTests m ws i := by
  have passes (r : Reason) (mem : r ∈ windowTests) : ¬ testFails m lower rest.isEmpty w r = true :=
    List.find?_eq_none.1 found r mem
  have others (r : Reason) (mem : r ∈ windowTests) (other : r ≠ .overlap) : ¬ FailsTest m ws i r :=
    mt (testFails_iff here isLower other).2 (passes r mem)
  intro r
  cases r with
  | tooMany => exact id
  | edgeRange | zeroWidth | wrapNotLast | order => exact others _ (by decide) (by decide)
  | overlap =>
    have zero := others .zeroWidth (by decide) (by decide)
    have order := others .order (by decide) (by decide)
    exact mt (testFails_overlap here isLower passed zero order).2 (passes _ (by decide))

/-! ## The check of a list -/

/-- What the answer of the check says of the list. -/
def CheckMeans (m : Nat) (ws : List Window) : Option (Reason × Nat) → Prop
  | none => ∀ j, PassesTests m ws j
  | some (r, i) => ∃ pre post, windowTests = pre ++ r :: post ∧ FirstFailure m ws pre r i

/-- No test fails past the end of the list. -/
theorem passesTests_of_length_le {i : Nat} (past : ws.length ≤ i) : PassesTests m ws i := by
  have absent : ws[i]? = none := List.getElem?_eq_none past
  intro r
  cases r <;> simp [FailsTest, absent]

theorem checkFrom_means (rest : List Window) {i : Nat} {lower : Option (Window × Window)} (here : ws.drop i = rest)
    (isLower : IsLower ws i lower) (passed : ∀ j, j < i → PassesTests m ws j) :
    CheckMeans m ws (checkFrom m lower i rest) := by
  induction rest generalizing i lower with
  | nil =>
    intro j
    by_cases lt : j < i
    · exact passed j lt
    · have := List.drop_eq_nil_iff.1 here
      exact passesTests_of_length_le (by omega)
  | cons w rest ih =>
    rw [checkFrom_cons]
    split
    · next r found => exact find_test_some here isLower passed found
    · next found =>
      have hw := window_of_drop here
      refine ih ?drop ⟨by omega, ?first, hw⟩ fun j lt => ?passed
      case drop => rw [← List.drop_drop, here]; rfl
      case first =>
        cases lower with
        | none =>
          obtain rfl : i = 0 := isLower
          exact hw
        | some lower =>
          obtain ⟨-, hfirst, -⟩ := isLower
          exact hfirst
      case passed =>
        obtain rfl | lt' : j = i ∨ j < i := by omega
        · exact find_test_none here isLower passed found
        · exact passed j lt'

theorem checkList_tooMany (m : Nat) (long : 12 < ws.length) : checkList m ws = some (.tooMany, 12) := if_pos long

theorem checkList_means (m : Nat) (short : ws.length ≤ 12) : CheckMeans m ws (checkList m ws) := by
  rw [checkList, if_neg (by omega)]
  exact checkFrom_means ws rfl rfl fun j lt => absurd lt (by omega)

/-- R43: the check passes the lists in which every window passes every test. -/
theorem checkList_absentiff : checkList m ws = none ↔ ws.length ≤ 12 ∧ ∀ j, PassesTests m ws j := by
  constructor
  · intro valid
    have short : ws.length ≤ 12 := Nat.le_of_not_lt fun long => by
      rw [checkList_tooMany m long] at valid
      cases valid
    have means := checkList_means m short
    rw [valid] at means
    exact ⟨short, means⟩
  · rintro ⟨short, passes⟩
    have means := checkList_means m short
    cases answer : checkList m ws with
    | none => rfl
    | some answered =>
      obtain ⟨r, i⟩ := answered
      rw [answer] at means
      obtain ⟨pre, post, -, fails, -⟩ := means
      exact absurd fails (passes i r)

/-- R43, R44: the check reports the first failure. -/
theorem checkList_some_iff (short : ws.length ≤ 12) {pre post : List Reason} {r : Reason} {i : Nat}
    (split : windowTests = pre ++ r :: post) : checkList m ws = some (r, i) ↔ FirstFailure m ws pre r i := by
  have means := checkList_means m short
  cases answer : checkList m ws with
  | none =>
    rw [answer] at means
    exact iff_of_false (by simp) fun ⟨fails, _⟩ => means i r fails
  | some answered =>
    obtain ⟨r', i'⟩ := answered
    rw [answer] at means
    obtain ⟨pre', post', split', first⟩ := means
    constructor
    · intro same
      obtain ⟨rfl, rfl⟩ := Prod.mk.inj (Option.some.inj same)
      obtain rfl := before_unique split split'
      exact first
    · intro first'
      obtain ⟨rfl, rfl⟩ := first.unique (split'.symm.trans split) first'
      rfl

/-! ## Validity as R42 states it -/

/-- A valid list fails no test. -/
theorem passesTests_of_valid (valid : ValidList m ws) (i : Nat) : PassesTests m ws i := by
  obtain ⟨-, edges, widths, rising, disjoint, straight⟩ := valid
  rw [List.pairwise_iff_getElem] at rising disjoint
  intro r
  cases r with
  | tooMany => exact id
  | edgeRange =>
    rintro ⟨w, hw, out⟩
    have := edges w (List.mem_of_getElem? hw)
    omega
  | zeroWidth =>
    rintro ⟨w, hw, zero⟩
    exact widths w (List.mem_of_getElem? hw) zero
  | wrapNotLast =>
    rintro ⟨w, hw, wraps, more⟩
    have mem : w ∈ ws.dropLast := by
      obtain ⟨bound, rfl⟩ := List.getElem?_eq_some_iff.1 hw
      exact List.mem_iff_getElem.2 ⟨i, by simp; omega, by simp⟩
    simpa [Window.wraps, wraps] using straight w mem
  | order =>
    rintro ⟨v, w, pos, hv, hw, not⟩
    obtain ⟨boundV, rfl⟩ := List.getElem?_eq_some_iff.1 hv
    obtain ⟨boundW, rfl⟩ := List.getElem?_eq_some_iff.1 hw
    have := rising (i - 1) i boundV boundW (by omega)
    omega
  | overlap =>
    rintro ⟨w, hw, j, v, lt, hv, meet⟩
    obtain ⟨boundV, rfl⟩ := List.getElem?_eq_some_iff.1 hv
    obtain ⟨boundW, rfl⟩ := List.getElem?_eq_some_iff.1 hw
    exact meet (disjoint j i boundV boundW lt)

/-- A list of at most 12 windows that fails no test is valid. -/
theorem valid_of_passesTests (short : ws.length ≤ 12) (passes : ∀ i, PassesTests m ws i) : ValidList m ws := by
  refine ⟨short, fun w mem => ?edges, fun w mem => ?widths, ?rising, ?disjoint, fun w mem => ?straight⟩
  case edges =>
    obtain ⟨i, hw⟩ := List.mem_iff_getElem?.1 mem
    exact ⟨Nat.lt_of_not_le fun out => passes i .edgeRange ⟨w, hw, .inl out⟩,
      Nat.lt_of_not_le fun out => passes i .edgeRange ⟨w, hw, .inr out⟩⟩
  case widths =>
    obtain ⟨i, hw⟩ := List.mem_iff_getElem?.1 mem
    exact fun zero => passes i .zeroWidth ⟨w, hw, zero⟩
  case rising =>
    rw [List.pairwise_iff_getElem]
    intro i j boundI boundJ lt
    exact on_lt_of_order (fun k _ => passes k .order) lt (Nat.le_refl _) (List.getElem?_eq_getElem boundI)
      (List.getElem?_eq_getElem boundJ)
  case disjoint =>
    rw [List.pairwise_iff_getElem]
    intro i j boundI boundJ lt
    exact Classical.byContradiction fun meet => passes j .overlap
      ⟨_, List.getElem?_eq_getElem boundJ, i, _, lt, List.getElem?_eq_getElem boundI, meet⟩
  case straight =>
    obtain ⟨i, bound, rfl⟩ := List.mem_iff_getElem.1 mem
    rw [List.length_dropLast] at bound
    rw [List.getElem_dropLast, Window.wraps, decide_eq_false_iff_not]
    exact fun wraps => passes i .wrapNotLast ⟨_, List.getElem?_eq_getElem (by omega), wraps, by omega⟩

/-- R42: a list is valid exactly when it has at most 12 windows and each of them passes every test. -/
theorem validList_iff : ValidList m ws ↔ ws.length ≤ 12 ∧ ∀ i, PassesTests m ws i :=
  ⟨fun valid => ⟨valid.1, passesTests_of_valid valid⟩, fun ⟨short, passes⟩ => valid_of_passesTests short passes⟩

/-- Settles O6: the check reports the first failure, and a list without one is valid. -/
theorem validityCheckPassesTheValidLists : Obligations.ValidityCheckPassesTheValidLists := by
  intro m ws
  refine ⟨checkList_absentiff.trans validList_iff.symm, checkList_tooMany m, ?_⟩
  intro short pre post r i split
  exact checkList_some_iff short split

end Sys2Proof.Machine
end

section
/-! PROOFS. The evaluation position (R53), Table 4-2, and one re-evaluation (R60, R66, R70, R71, R76). -/

namespace Sys2Proof.Machine

variable {s : State}

/-! ## The evaluation position and the inside test -/

theorem evalPosition_cast (p : Nat) (shift : Int) {m : Nat} (pos : 0 < m) :
    (evalPosition p shift m : Int) = ((p : Int) + shift) % (m : Int) :=
  Int.toNat_of_nonneg (Int.emod_nonneg _ (by omega))

theorem evalPosition_lt (p : Nat) (shift : Int) {m : Nat} (pos : 0 < m) : evalPosition p shift m < m := by
  have below := Int.emod_lt_of_pos ((p : Int) + shift) (Int.natCast_pos.2 pos)
  rw [← evalPosition_cast p shift pos] at below
  exact Int.ofNat_lt.1 below

/-- A shift of whole turns leaves the position. -/
theorem evalPosition_whole_turns {p m : Nat} (onRing : p < m) (k : Int) : evalPosition p (k * m) m = p := by
  rw [evalPosition, Int.add_mul_emod_self_right, Int.emod_eq_of_lt (by omega) (by omega)]
  rfl

theorem inside_iff (s : State) (t : TrackNo) :
    s.inside t = true ↔
      ∃ w ∈ s.active.list t, w.covers (evalPosition s.counter.p (s.track t).shift s.counter.modulus) = true :=
  List.any_eq_true

/-- Settles O7: the remainder of the ring lies on it, and the inside test is a search at that position. -/
theorem evaluationPositionLiesOnTheRing : Obligations.EvaluationPositionLiesOnTheRing := by
  refine ⟨fun p shift m pos => ⟨?_, ?_, ?_⟩, by decide, by decide, inside_iff⟩
  · exact evalPosition_lt p shift pos
  · exact evalPosition_cast p shift pos
  · exact evalPosition_whole_turns

/-! ## Table 4-2 -/

/-- R41: the positions that a window covers, where it wraps and where it does not. -/
theorem covers_iff (w : Window) (e : Nat) :
    w.covers e = true ↔ (w.on < w.off ∧ w.on ≤ e ∧ e < w.off) ∨ (w.off < w.on ∧ (w.on ≤ e ∨ e < w.off)) := by
  unfold Window.covers
  split
  · simp; omega
  · split
    · simp; omega
    · simp; omega

theorem levelOf_on {i : TrackNo} (mode : (s.track i).effective = .on) : s.levelOf i = true := by
  rw [State.levelOf, mode]

theorem levelOf_off {i : TrackNo} (mode : (s.track i).effective = .off) : s.levelOf i = false := by
  rw [State.levelOf, mode]

theorem levelOf_hold {i : TrackNo} (mode : (s.track i).effective = .hold) : s.levelOf i = (s.track i).held := by
  rw [State.levelOf, mode]

theorem levelOf_cam {i : TrackNo} (mode : (s.track i).effective = .cam)
    (runs : s.counter.ref = .referenced ∨ (s.track i).runUnref = true) : s.levelOf i = s.inside i := by
  simp only [State.levelOf, mode]
  rw [if_pos (by simpa using runs)]

theorem levelOf_cam_unreferenced {i : TrackNo} (mode : (s.track i).effective = .cam)
    (unreferenced : s.counter.ref ≠ .referenced) (waits : (s.track i).runUnref = false) : s.levelOf i = false := by
  simp only [State.levelOf, mode]
  rw [if_neg (by simp [unreferenced, waits])]

/-! ## One re-evaluation -/

theorem reevaluate_self (c : EdgeCause) (ts : List TrackNo) (s : State) :
    reevaluate c ts s = { s with tracks := (reevaluate c ts s).tracks, mail := (reevaluate c ts s).mail } := by
  obtain ⟨tracks, mail, same⟩ := reevaluate_frame c ts s
  rw [same]

theorem evaluated_eq (s : State) (i : TrackNo) :
    evaluated s i =
      { s.track i with
        level := s.levelOf i
        pin := if s.levelOf i = (s.track i).level then (s.track i).pin else s.levelOf i && s.oe } := by
  unfold evaluated
  split
  · next same => rw [same]
  · rfl

/-- R120: an EDGE goes to the OPEN ports that subscribe to its track. -/
theorem addressed_edge_iff (s u : State) (i : TrackNo) (level : Bool) (c : EdgeCause) (q : Port) :
    s.addressed (edgeEvent u i level c) q = true ↔ s.isOpen q = true ∧ (s.box q).trackMask.getLsbD i.val = true := by
  have subject : (byteOf i.val).toNat = i.val := byteOf_toNat (by omega)
  simp [State.addressed, edgeEvent, Mailbox.subscribes, subject]

/-- The EDGE record of track `i` filed in a box by the box's own subscription. -/
def fileSubscribed (s : State) (c : EdgeCause) (q : Port) (m : Mailbox) (i : TrackNo) : Mailbox :=
  if s.isOpen q = true ∧ m.trackMask.getLsbD i.val = true then
    m.file fun n =>
      { seq := n, kind := .edge, subject := byteOf i.val,
        detail := bytes24 0 c.code (boolByte (s.levelOf i)), time := s.time,
        position := BitVec.ofNat 24 s.counter.p, extra := s.counter.turns.setWidth 24 }
  else m

/-- A box that has the port's subscription takes the EDGE by its own. -/
theorem fileEdge_eq (c : EdgeCause) (q : Port) {m : Mailbox} (mask : m.trackMask = (s.box q).trackMask) (i : TrackNo) :
    fileEdge s c q m i = fileSubscribed s c q m i := by
  simp only [fileEdge, fileSubscribed, addressed_edge_iff, mask]
  rfl

theorem fileEdge_trackMask (c : EdgeCause) (q : Port) (m : Mailbox) (i : TrackNo) :
    (fileEdge s c q m i).trackMask = m.trackMask := by
  unfold fileEdge
  split
  · exact file_trackMask _ _
  · rfl

/-- Filing EDGE records keeps the subscription, so each of them is filed by the box's own. -/
theorem foldl_fileEdge (c : EdgeCause) (q : Port) (ts : List TrackNo) {m : Mailbox}
    (mask : m.trackMask = (s.box q).trackMask) : ts.foldl (fileEdge s c q) m = ts.foldl (fileSubscribed s c q) m := by
  induction ts generalizing m with
  | nil => rfl
  | cons i ts ih =>
    rw [List.foldl_cons, List.foldl_cons, ih ((fileEdge_trackMask c q m i).trans mask), fileEdge_eq c q mask]

/-- Settles O9: the rows of Table 4-2 by mode, and what one re-evaluation does to the state, to each track and to each box. -/
theorem reevaluationSetsEveryLevel : Obligations.ReevaluationSetsEveryLevel := by
  refine ⟨fun s t => ?level, fun _ _ => rfl, fun _ => rfl, fun cause named s nodup => ?reevaluation⟩
  case level =>
    refine ⟨rfl, levelOf_on, levelOf_off, levelOf_hold, fun mode runs => ?_, levelOf_cam_unreferenced⟩
    rw [levelOf_cam mode runs, inside_iff]
    simp only [covers_iff]
  case reevaluation =>
    refine ⟨reevaluate_self cause named s, fun t out => ?_, fun t mem => ?_, fun q => ?_⟩
    · rw [reevaluate_track, if_neg out]
    · rw [reevaluate_track, if_pos mem, evaluated_eq]
    · rw [reevaluate_box cause q named nodup, foldl_fileEdge cause q _ rfl]
      rfl

end Sys2Proof.Machine
end

section
/-! PROOFS. READ-WINDOWS (R56, R57): the cases of the request, and the statement put together from them. -/

namespace Sys2Proof.Machine

variable {s : State} {p : Port} {payload : List Byte}

/-! ## The session as a port sees it -/

theorem sessionOf_none (p : Port) (absent : s.session = none) : s.sessionOf p = none := by
  rw [State.sessionOf, absent]
  rfl

theorem sessionOf_other {e : EditSession} (session : s.session = some e) (other : e.holder ≠ p) : s.sessionOf p = none := by
  simp [State.sessionOf, session, other]

theorem sessionOf_holder {e : EditSession} (session : s.session = some e) (holds : e.holder = p) :
    s.sessionOf p = some e := by
  simp [State.sessionOf, session, holds]

/-- The detail of NO_SESSION names the holder, or none. -/
theorem refuseNoSession_none (absent : s.session = none) : refuseNoSession s = refuse s .noSession 0xFFFF := by
  rw [refuseNoSession, absent]
  rfl

theorem refuseNoSession_holder {e : EditSession} (session : s.session = some e) :
    refuseNoSession s = refuse s .noSession (BitVec.ofNat 16 e.holder.val) := by
  rw [refuseNoSession, session]
  rfl

/-! ## The cases of the request -/

theorem reqReadWindows_bank (bank : 1 < u8 payload 0) : reqReadWindows p payload s = refuseRange s 0 := by
  rw [reqReadWindows, boolOfCode_none bank]
  rfl

theorem reqReadWindows_track (bank : u8 payload 0 ≤ 1) (track : 15 < u8 payload 1) :
    reqReadWindows p payload s = refuseRange s 1 := by
  rw [reqReadWindows, boolOfCode_isSome, decide_eq_true bank, decide_eq_false (by omega)]
  rfl

/-- A payload in range. -/
theorem reqReadWindows_inRange {t : TrackNo} (bank : u8 payload 0 ≤ 1) (track : t.val = u8 payload 1) :
    reqReadWindows p payload s =
      if boolOfCode (u8 payload 0) = some true then
        match s.sessionOf p with
        | none => refuseNoSession s
        | some e => replyOk s 0 (windowsPayload true t e.shadow s.counter.modulus)
      else replyOk s 0 (windowsPayload false t s.active s.counter.modulus) := by
  rw [reqReadWindows, boolOfCode_isSome, decide_eq_true bank, decide_eq_true (by omega), trackOfCode_some track]
  rfl

theorem reqReadWindows_active {t : TrackNo} (bank : u8 payload 0 = 0) (track : t.val = u8 payload 1) :
    reqReadWindows p payload s = replyOk s 0 (windowsPayload false t s.active s.counter.modulus) := by
  rw [reqReadWindows_inRange (by omega) track, bank]
  rfl

theorem reqReadWindows_shadow {t : TrackNo} (bank : u8 payload 0 = 1) (track : t.val = u8 payload 1) :
    reqReadWindows p payload s =
      match s.sessionOf p with
      | none => refuseNoSession s
      | some e => replyOk s 0 (windowsPayload true t e.shadow s.counter.modulus) := by
  rw [reqReadWindows_inRange (by omega) track, bank]
  rfl

theorem reqReadWindows_noSession {t : TrackNo} (bank : u8 payload 0 = 1) (track : t.val = u8 payload 1)
    (absent : s.session = none) : reqReadWindows p payload s = refuse s .noSession 0xFFFF := by
  rw [reqReadWindows_shadow bank track, sessionOf_none p absent]
  exact refuseNoSession_none absent

theorem reqReadWindows_otherHolder {t : TrackNo} {e : EditSession} (bank : u8 payload 0 = 1) (track : t.val = u8 payload 1)
    (session : s.session = some e) (other : e.holder ≠ p) :
    reqReadWindows p payload s = refuse s .noSession (BitVec.ofNat 16 e.holder.val) := by
  rw [reqReadWindows_shadow bank track, sessionOf_other session other]
  exact refuseNoSession_holder session

theorem reqReadWindows_holder {t : TrackNo} {e : EditSession} (bank : u8 payload 0 = 1) (track : t.val = u8 payload 1)
    (session : s.session = some e) (holds : e.holder = p) :
    reqReadWindows p payload s = replyOk s 0 (windowsPayload true t e.shadow s.counter.modulus) := by
  rw [reqReadWindows_shadow bank track, sessionOf_holder session holds]

/-- Settles O48: each clause is one case of the request, in the state in which it was heard. -/
theorem readWindowsReportsOneList : Obligations.ReadWindowsReportsOneList := by
  intro s p seq payload accepted answer
  refine ⟨fun bank => ?bank, fun bank track => ?track, fun t track => ⟨fun active => ?active, fun shadow => ?shadow⟩⟩
  case bank => exact refuses_of accepted (reqReadWindows_bank bank) rfl
  case track => exact refuses_of accepted (reqReadWindows_track bank track) rfl
  case active => exact completes_of accepted (reqReadWindows_active active track) rfl
  case shadow =>
    refine ⟨fun absent => ?_, fun e session other => ?_, fun e session holds => ?_⟩
    · exact refuses_of accepted (reqReadWindows_noSession shadow track absent) rfl
    · exact refuses_of accepted (reqReadWindows_otherHolder shadow track session other) rfl
    · exact completes_of accepted (reqReadWindows_holder shadow track session holds) rfl

end Sys2Proof.Machine
end

section
/-! PROOFS. Pending commits and the owners of the tracks they change (R87): what an operation may do to session, active bank and
owners without touching the law, the two requests that do more (CLAIM-TRACKS, COMMIT), and the invariant of every step put
together from them. -/

namespace Sys2Proof.Machine

variable {s t u : State}

/-! ## Operations that ask nothing of the law -/

/-- From `s` to `t` either no commit is left pending, or session and active bank stay and tracks are at most freed. -/
inductive KeepsCommit (s t : State) : Prop
  | noCommit (ended : t.commitPending = false)
  | sameCommit (session : t.session = s.session) (active : t.active = s.active)
      (owners : ∀ i, (t.track i).ownerPort = (s.track i).ownerPort ∨ (t.track i).ownerPort = none)

theorem commitLaw_of_noCommit (ended : s.commitPending = false) : commitLaw s := by
  intro e session pending
  simp [State.commitPending, session, pending] at ended

theorem KeepsCommit.commitLaw (h : KeepsCommit s t) (law : commitLaw s) : commitLaw t := by
  cases h with
  | noCommit ended => exact commitLaw_of_noCommit ended
  | sameCommit session active owners =>
    intro e present pending i changed
    have before := law e (session ▸ present) pending i (by simpa only [State.changed, active] using changed)
    obtain same | freed := owners i
    · rwa [same]
    · exact .inl freed

namespace KeepsCommit

theorem of_noSession (ended : t.session = none) : KeepsCommit s t :=
  noCommit (by rw [State.commitPending, ended]; rfl)

/-- What leaves session, active bank and tracks as they were. -/
theorem of_frame (session : t.session = s.session) (active : t.active = s.active) (tracks : t.tracks = s.tracks) :
    KeepsCommit s t :=
  sameCommit session active fun i => .inl (by rw [track_congr tracks])

theorem refl (s : State) : KeepsCommit s s := of_frame rfl rfl rfl

theorem trans (first : KeepsCommit s t) (second : KeepsCommit t u) : KeepsCommit s u := by
  cases second with
  | noCommit ended => exact noCommit ended
  | sameCommit session active owners =>
    cases first with
    | noCommit ended => exact noCommit (by rw [State.commitPending, session]; exact ended)
    | sameCommit session' active' owners' =>
      refine sameCommit (session.trans session') (active.trans active') fun i => ?_
      obtain same | freed := owners i
      · rw [same]; exact owners' i
      · exact .inr freed

/-- An operation that acts after what leaves session, active bank and tracks as they were. -/
theorem after_frame (second : KeepsCommit t u) (session : t.session = s.session) (active : t.active = s.active)
    (tracks : t.tracks = s.tracks) : KeepsCommit s u :=
  (of_frame session active tracks).trans second

/-! ## Tracks -/

/-- An operation on the tracks alone that leaves their owners or frees them. -/
theorem setTracks (f : TrackNo → Track) (owners : ∀ i, (f i).owner = (s.track i).owner ∨ (f i).owner = none) :
    KeepsCommit s (s.setTracks (Table.build f)) := by
  refine sameCommit rfl rfl fun i => ?_
  rw [track_setTracks_build]
  obtain same | freed := owners i
  · exact .inl (by rw [Track.ownerPort, same]; rfl)
  · exact .inr (by rw [Track.ownerPort, freed]; rfl)

theorem reevaluate (c : EdgeCause) (ts : List TrackNo) (s : State) : KeepsCommit s (reevaluate c ts s) := by
  refine sameCommit (reevaluate_session s c ts) (reevaluate_active s c ts) fun i => .inl ?_
  rw [reevaluate_track]
  split
  · rw [Track.ownerPort, evaluated_owner]; rfl
  · rfl

theorem reevaluateAll (c : EdgeCause) (s : State) : KeepsCommit s (reevaluateAll c s) := reevaluate c _ s

theorem recomputeShifts (s : State) : KeepsCommit s (recomputeShifts s) := setTracks _ fun _ => .inl rfl

theorem motionAtPeriodEnd (s : State) : KeepsCommit s (motionAtPeriodEnd s) :=
  (recomputeShifts s).trans (reevaluate _ _ _)

theorem drivePins (s : State) : KeepsCommit s (drivePins s) := setTracks _ fun _ => .inl rfl

theorem freeTracks (f : TrackNo → Bool) (p : Port) (cause : Byte) (s : State) : KeepsCommit s (freeTracks f p cause s) := by
  have freed : KeepsCommit s
      (s.setTracks (Table.build fun i => if f i then (s.track i).freed else s.track i)) := by
    refine setTracks _ fun i => ?_
    split
    · exact .inr rfl
    · exact .inl rfl
  exact freed.trans ((reevaluate .owner (tracksWhere f) _).after_frame rfl rfl rfl)

/-- R68: SET-TRACK leaves its track with the port that owns it. -/
theorem configured {i : TrackNo} {p : Port} (owned : s.owns p i = true) (y : TrackParams) :
    KeepsCommit s (s.setTrack i ((s.track i).configured s.monitor.speed p y)) := by
  refine sameCommit rfl rfl fun j => .inl ?_
  rw [track_setTrack]
  split
  · next same =>
    subst same
    have before : (s.track j).ownerPort = some p := by simpa [State.owns] using owned
    rw [before]
    rfl
  · rfl

/-! ## The edit unit -/

theorem swapWith (e : EditSession) (tag : Word16) (s : State) : KeepsCommit s (swapWith e tag s) :=
  of_noSession (by simp [Machine.swapWith])

theorem swapPending (s : State) : KeepsCommit s (swapPending s) := by
  unfold Machine.swapPending
  split
  · exact refl s
  · split
    · exact refl s
    · exact swapWith _ _ s

theorem editAtIndex (s : State) : KeepsCommit s (editAtIndex s) := by
  unfold Machine.editAtIndex
  split
  · exact swapPending s
  · exact refl s

theorem editAtPeriodEnd (s : State) : KeepsCommit s (editAtPeriodEnd s) := by
  unfold Machine.editAtPeriodEnd
  split
  · exact swapPending s
  · exact refl s

theorem withdrawCommit (cause : Byte) (s : State) : KeepsCommit s (withdrawCommit cause s) := by
  unfold Machine.withdrawCommit
  split
  · exact refl s
  · split
    · exact refl s
    · exact noCommit rfl

theorem endSession (s : State) : KeepsCommit s (endSession s) := by
  unfold Machine.endSession
  split
  · exact refl s
  · split
    · exact of_noSession rfl
    · exact of_noSession rfl

/-! ## The encoder -/

theorem takeArrival (d : Dir) (s : State) : KeepsCommit s (takeArrival d s) := by
  have moved : KeepsCommit s (stepPosition d s) := of_frame rfl rfl rfl
  have chosen : KeepsCommit s (stepPosition d s).advanceChoices := of_frame rfl rfl rfl
  simp only [Machine.takeArrival]
  split
  · split
    · exact (chosen.trans (reevaluateAll .motion _)).trans (swapPending _)
    · exact (chosen.trans (swapPending _)).trans (reevaluateAll .motion _)
  · exact moved.trans (reevaluateAll .motion _)

theorem raiseLowering (k : FaultKind) (d : Word24) (s : State) : KeepsCommit s (raiseLowering k d s) := by
  simp only [Machine.raiseLowering]
  split
  · exact of_frame rfl rfl rfl
  · exact (of_frame rfl rfl rfl : KeepsCommit s (lowerReference k (noteFault k d s))).trans (reevaluateAll _ _)

theorem sampleCount (a b : Bool) (s : State) : KeepsCommit s (sampleCount a b s) := by
  have taken : KeepsCommit s (s.setCounter { s.counter with lineA := a, lineB := b, resyncCount := false }) :=
    of_frame rfl rfl rfl
  simp only [Machine.sampleCount]
  split
  · exact taken
  · split
    · exact taken
    · exact taken.trans (takeArrival _ _)
    · exact taken.trans (raiseLowering _ _ _)

theorem placePosition (mode : PresetMode) (value : Nat) (p : Port) (r : Option Nat) (s : State) :
    KeepsCommit s (placePosition mode value p r s) :=
  (reevaluateAll .preset _).after_frame rfl rfl rfl

theorem driftEdge (d : Nat) (s : State) : KeepsCommit s (driftEdge d s) := by
  have lowered : KeepsCommit s (lowerReference .indexDrift (noteFault .indexDrift (BitVec.ofNat 24 d) s)) :=
    of_frame rfl rfl rfl
  have chosen : KeepsCommit s
      (lowerReference .indexDrift (noteFault .indexDrift (BitVec.ofNat 24 d) s)).advanceChoices :=
    of_frame rfl rfl rfl
  simp only [Machine.driftEdge]
  split
  · split
    · exact (chosen.trans (reevaluateAll .reference _)).trans (swapPending _)
    · exact (chosen.trans (swapPending _)).trans (reevaluateAll .reference _)
  · exact lowered.trans (reevaluateAll .reference _)

theorem takeIndexEdge (s : State) : KeepsCommit s (takeIndexEdge s) := by
  unfold Machine.takeIndexEdge
  split
  · exact (placePosition _ _ _ _ s).trans (editAtIndex _)
  · split
    · split
      · exact (editAtIndex _).after_frame rfl rfl rfl
      · split
        · exact driftEdge _ s
        · exact editAtIndex s
    · exact editAtIndex s

theorem sampleIndex (i : Bool) (s : State) : KeepsCommit s (sampleIndex i s) := by
  have taken : KeepsCommit s (s.setCounter { s.counter with lineIndex := i, resyncIndex := false }) :=
    of_frame rfl rfl rfl
  simp only [Machine.sampleIndex]
  split
  · exact taken
  · split
    · exact taken.trans (takeIndexEdge _)
    · exact taken

theorem receiversFail (l : LineSet) (s : State) : KeepsCommit s (receiversFail l s) := by
  simp only [Machine.receiversFail]
  split
  · exact of_frame rfl rfl rfl
  · split
    · exact of_frame rfl rfl rfl
    · split
      · exact refl s
      · exact (raiseLowering _ _ _).after_frame rfl rfl rfl

theorem act (s : State) (x : PeriodReceiver) : KeepsCommit s (PeriodReceiver.act s x) := by
  cases x with
  | motion => exact motionAtPeriodEnd s
  | edit => exact editAtPeriodEnd s
  | overspeed => exact of_frame (judgeOverspeed_session s) (judgeOverspeed_active s) (judgeOverspeed_tracks s)

/-- The receivers of a period end, in any of their orders. -/
theorem periodReceivers (xs : List PeriodReceiver) (before : KeepsCommit s t) :
    KeepsCommit s (xs.foldl PeriodReceiver.act t) :=
  List.foldlRecOn (motive := KeepsCommit s) xs PeriodReceiver.act before fun _ kept x _ => kept.trans (act _ x)

theorem closeSamplePeriod (s : State) : KeepsCommit s (closeSamplePeriod s) := by
  simp only [Machine.closeSamplePeriod]
  split
  · exact periodReceivers _ (of_frame rfl rfl rfl)
  · exact periodReceivers _ (of_frame rfl rfl rfl)

theorem changeGeometry (x : AxisConfig) (s : State) : KeepsCommit s (changeGeometry x s) := by
  simp only [Machine.changeGeometry]
  refine ((of_frame ?session ?active ?tracks).trans (recomputeShifts _)).trans (reevaluateAll .reference _)
  all_goals
    unfold produceIf withdrawPreset
    (repeat' split) <;> rfl

/-! ## The store, the outputs and the port reset -/

theorem completeStore (b : Bool) (s : State) : KeepsCommit s (completeStore b s) :=
  of_frame (completeStore_session s b) (completeStore_active s b) (completeStore_tracks s b)

theorem completeErase (s : State) : KeepsCommit s (completeErase s) :=
  of_frame (completeErase_session s) (completeErase_active s) (completeErase_tracks s)

theorem changeOe (level : Bool) (s : State) : KeepsCommit s (changeOe level s) := by
  unfold Machine.changeOe
  split
  · exact refl s
  split
  · exact ((of_frame rfl rfl rfl : KeepsCommit s (s.setOe level)).trans (drivePins _)).trans (of_frame rfl rfl rfl)
  · exact of_frame rfl rfl rfl

theorem resetTracksOf (p : Port) (c : ResetCause) (s : State) : KeepsCommit s (resetTracksOf p c s) := by
  unfold Machine.resetTracksOf
  split
  · exact refl s
  · exact freeTracks _ _ _ s

theorem resetSessionOf (p : Port) (s : State) : KeepsCommit s (resetSessionOf p s) := by
  unfold Machine.resetSessionOf
  split
  · exact of_noSession rfl
  · exact refl s

theorem portReset (p : Port) (c : ResetCause) (s : State) : KeepsCommit s (portReset p c s) := by
  have left : KeepsCommit s (s.setPort p { s.port p with state := c.portState }) := of_frame rfl rfl rfl
  have axis := left.trans (of_frame (resetAxisOf_session _ p c) (resetAxisOf_active _ p c) (resetAxisOf_tracks _ p c))
  have rest (z : State) (x : PortRec) : KeepsCommit z ((resetBoxOf p (resetRequesterOf p z)).setPort p x) :=
    of_frame rfl rfl rfl
  exact ((axis.trans (resetTracksOf p c _)).trans (resetSessionOf p _)).trans (rest _ _)

end KeepsCommit

/-! ## The requests -/

theorem commitPending_setSession {e : EditSession} (editing : ¬ e.isPending = true) (s : State) :
    (s.setSession (some e)).commitPending = false :=
  Bool.eq_false_iff.2 editing

/-- The requests of the edit session, COMMIT apart. -/
def Request.edits : Request → Bool
  | .openEdit | .writeWindows | .loadSlot | .abortEdit => true
  | _ => false

/-- A request that touches neither outputs nor the edit session leaves the session. -/
theorem handle_session {r : Request} (inert : r.touchesOutputs = false) (noEdit : r.edits = false) (p : Port)
    (payload : List Byte) (s : State) : (handle r p payload s).state.session = s.session := by
  cases r <;> simp only [handle]
  case preset | setAxis | claimTracks | releaseTracks | setTrack | commit => exact absurd inert (by decide)
  case openEdit | writeWindows | loadSlot | abortEdit => exact absurd noEdit (by decide)
  case identify | readAxis | readTracks => rfl
  case openPort => unfold reqOpen; split <;> rfl
  case closePort => unfold reqClose; split <;> rfl
  case readStatus => unfold reqReadStatus; simp only []; (repeat' split) <;> rfl
  case clearFault => unfold reqClearFault; (repeat' split) <;> rfl
  case restart => unfold reqRestart; (repeat' split) <;> rfl
  case claimAxis => unfold reqClaimAxis; (repeat' split) <;> rfl
  case releaseAxis => unfold reqReleaseAxis withdrawPreset; (repeat' split) <;> rfl
  case cancelPreset => unfold reqCancelPreset withdrawPreset; (repeat' split) <;> rfl
  case clearAxisFault => unfold reqClearAxisFault; (repeat' split) <;> rfl
  case readWindows => unfold reqReadWindows; (repeat' split) <;> rfl
  case storeSlot => unfold reqStoreSlot; simp only []; (repeat' split) <;> rfl
  case eraseSlot => unfold reqEraseSlot; (repeat' split) <;> rfl
  case readSlot => unfold reqReadSlot; split <;> rfl
  case subscribe => unfold reqSubscribe; split <;> rfl
  case fetchEvents => unfold reqFetchEvents; simp only []; split <;> rfl

namespace KeepsCommit

/-- R80: a new session is in EDITING. -/
theorem openEdit (p : Port) (payload : List Byte) (s : State) : KeepsCommit s (reqOpenEdit p payload s).state := by
  unfold reqOpenEdit
  split
  · exact refl s
  split
  · split
    · exact refl s
    · exact refl s
  · exact noCommit rfl

/-- R83: the session that takes a list is in EDITING. -/
theorem writeWindows (p : Port) (payload : List Byte) (s : State) :
    KeepsCommit s (reqWriteWindows p payload s).state := by
  unfold reqWriteWindows
  split
  · exact refl s
  split
  · exact refl s
  split
  · exact refl s
  split
  · exact refl s
  next editing =>
  split
  · exact refl s
  split
  · exact refl s
  · exact noCommit (commitPending_setSession editing s)

/-- R110: the session that takes an image is in EDITING. -/
theorem loadSlot (p : Port) (payload : List Byte) (s : State) : KeepsCommit s (reqLoadSlot p payload s).state := by
  unfold reqLoadSlot
  split
  · exact refl s
  split
  · exact refl s
  split
  · exact refl s
  next editing =>
  split
  · exact refl s
  split
  · exact refl s
  split
  · exact refl s
  · exact noCommit (commitPending_setSession editing s)

theorem abortEdit (p : Port) (payload : List Byte) (s : State) : KeepsCommit s (reqAbortEdit p payload s).state := by
  unfold reqAbortEdit
  split
  · exact refl s
  split
  · exact refl s
  split
  · split
    · exact withdrawCommit 1 s
    · exact refl s
  · exact endSession s

theorem preset (p : Port) (payload : List Byte) (s : State) : KeepsCommit s (reqPreset p payload s).state := by
  unfold reqPreset
  split
  · exact refl s
  split
  · exact refl s
  split
  · exact refl s
  split
  · exact placePosition _ _ _ _ s
  · exact of_frame rfl rfl rfl

theorem setAxis (p : Port) (payload : List Byte) (s : State) : KeepsCommit s (reqSetAxis p payload s).state := by
  unfold reqSetAxis
  split
  · exact refl s
  split
  · exact refl s
  split
  · exact refl s
  split
  · exact refl s
  split
  · exact of_frame rfl rfl rfl
  · exact changeGeometry _ s

theorem releaseTracks (p : Port) (payload : List Byte) (s : State) :
    KeepsCommit s (reqReleaseTracks p payload s).state := by
  simp only [reqReleaseTracks]
  split
  · exact refl s
  split
  · exact refl s
  · exact freeTracks _ _ _ s

theorem setTrack (p : Port) (payload : List Byte) (s : State) : KeepsCommit s (reqSetTrack p payload s).state := by
  unfold reqSetTrack
  split
  · exact refl s
  split
  · exact refl s
  split
  · next owned => exact (configured owned _).trans (reevaluate _ _ _)
  · exact refl s

end KeepsCommit

/-- R61: a free track that no pending commit of another port locks may become the caller's. -/
theorem commitLaw_claimed {p : Port} {mask : Word16} (unlocked : lockedTrack s p mask = none) (law : commitLaw s) :
    commitLaw (s.setTracks (Table.build fun i => if inMask mask i then (s.track i).claimed p else s.track i)) := by
  intro e session pending i changed
  have before := law e session pending i changed
  rw [track_setTracks_build]
  split
  · next inside =>
    cases owner : (s.track i).owner with
    | some o => simpa only [Track.claimed, owner] using before
    | none =>
      have free := (Table.find_numbers_none _).1 unlocked i
      have notLocked : s.lockedAgainst p i = false := by simpa [inside, owner] using free
      have changed' : e.shadow.list i ≠ s.active.list i := of_decide_eq_true changed
      have session' : s.session = some e := session
      have holds : e.holder = p := by simpa [State.lockedAgainst, session', pending, changed'] using notLocked
      exact .inr (by simp [Track.claimed, owner, Track.ownerPort, holds])
  · exact before

theorem commitLaw_claimTracks (p : Port) (payload : List Byte) (law : commitLaw s) :
    commitLaw (reqClaimTracks p payload s).state := by
  simp only [reqClaimTracks]
  split
  · exact law
  split
  · exact law
  split
  · exact law
  next unlocked =>
  refine (KeepsCommit.of_frame ?_ ?_ ?_).commitLaw (commitLaw_claimed unlocked law)
  all_goals simp [replyOk]

/-- R87: a commit that becomes pending has passed the check of the owners. -/
theorem commitLaw_deferred {p : Port} {e : EditSession} (holds : s.sessionOf p = some e)
    (owned : foreignChange s p e.shadow = none) (pc : PendingCommit) :
    commitLaw (s.setSession (some { e with pending := some pc })) := by
  obtain ⟨-, holder⟩ : s.session = some e ∧ e.holder = p := by simpa [State.sessionOf] using holds
  rintro _ ⟨⟩ - i changed
  have mem : i ∈ changedTracks e.shadow s.active := List.mem_filter.2 ⟨Table.mem_numbers i, changed⟩
  have own := List.find?_eq_none.1 owned i mem
  have same : (s.setSession (some { e with pending := some pc })).track i = s.track i := rfl
  rw [same, holder]
  cases owner : (s.track i).ownerPort with
  | none => exact .inl rfl
  | some q => exact .inr (by simpa [owner] using own)

theorem commitLaw_commit (p : Port) (payload : List Byte) (law : commitLaw s) :
    commitLaw (reqCommit p payload s).state := by
  simp only [reqCommit]
  split
  · exact law
  split
  · exact law
  next holds =>
  split
  · exact law
  next owned =>
  split
  · exact law
  split
  · exact (KeepsCommit.swapWith _ _ s).commitLaw law
  · exact commitLaw_deferred holds owned _

theorem commitLaw_handle (r : Request) (p : Port) (payload : List Byte) (running : s.lifecycle = .running)
    (law : commitLaw s) : commitLaw (handle r p payload s).state := by
  by_cases quiet : r.touchesOutputs = false ∧ r.edits = false
  · obtain ⟨inert, noEdit⟩ := quiet
    have levels := congrArg OutputView.levels (handle_outputView inert p payload running)
    have kept := KeepsCommit.of_frame (handle_session inert noEdit p payload s) (congrArg LevelView.active levels)
      (congrArg LevelView.tracks levels)
    exact kept.commitLaw law
  · cases r <;> simp only [Request.touchesOutputs, Request.edits, and_self, not_true_eq_false] at quiet
    case preset => exact (KeepsCommit.preset p payload s).commitLaw law
    case setAxis => exact (KeepsCommit.setAxis p payload s).commitLaw law
    case claimTracks => exact commitLaw_claimTracks p payload law
    case releaseTracks => exact (KeepsCommit.releaseTracks p payload s).commitLaw law
    case setTrack => exact (KeepsCommit.setTrack p payload s).commitLaw law
    case openEdit => exact (KeepsCommit.openEdit p payload s).commitLaw law
    case writeWindows => exact (KeepsCommit.writeWindows p payload s).commitLaw law
    case commit => exact commitLaw_commit p payload law
    case abortEdit => exact (KeepsCommit.abortEdit p payload s).commitLaw law
    case loadSlot => exact (KeepsCommit.loadSlot p payload s).commitLaw law

/-! ## The law is kept by every operation -/

theorem endLoad_session (s : State) : (endLoad s).session = s.session := by
  unfold endLoad
  cases bootImage s <;> simp [applyImage]

/-- Before service there is no session, and the end of the load begins none. -/
theorem commitLaw_endLoad (boot : bootLaw s) (closed : s.inService = false) : commitLaw (endLoad s) := by
  obtain ⟨-, -, -, -, -, -, noSession, -⟩ := boot closed
  intro e session
  rw [endLoad_session, noSession] at session
  cases session

theorem commitLaw_kept : Kept fun s => bootLaw s ∧ commitLaw s where
  port s p x state cause := .imp (bootLaw_kept.port s p x state cause) (KeepsCommit.of_frame rfl rfl rfl).commitLaw
  request r p payload s running admits length :=
    .imp (bootLaw_kept.request r p payload s running admits length) (commitLaw_handle r p payload running)
  reset p c s opened := .imp (bootLaw_kept.reset p c s opened) (KeepsCommit.portReset p c s).commitLaw
  close s p notOpen := .imp (bootLaw_kept.close s p notOpen) (KeepsCommit.of_frame rfl rfl rfl).commitLaw
  device s := .imp (bootLaw_kept.device s) (KeepsCommit.of_noSession rfl).commitLaw
  load straps s reset := .imp (bootLaw_kept.load straps s reset) (KeepsCommit.of_frame rfl rfl rfl).commitLaw
  loaded s loading := fun ⟨boot, _⟩ =>
    ⟨bootLaw_kept.loaded s loading boot, commitLaw_endLoad boot (by simp [State.inService, loading])⟩
  count a b s service := .imp (bootLaw_kept.count a b s service) (KeepsCommit.sampleCount a b s).commitLaw
  index i s service := .imp (bootLaw_kept.index i s service) (KeepsCommit.sampleIndex i s).commitLaw
  fail l s := .imp (bootLaw_kept.fail l s) (KeepsCommit.receiversFail l s).commitLaw
  heal l s := .imp (bootLaw_kept.heal l s) (KeepsCommit.of_frame rfl rfl rfl).commitLaw
  restore s due := .imp (bootLaw_kept.restore s due) (KeepsCommit.of_frame rfl rfl rfl).commitLaw
  period s due := .imp (bootLaw_kept.period s due) (KeepsCommit.closeSamplePeriod s).commitLaw
  deadline s due := .imp (bootLaw_kept.deadline s due) (KeepsCommit.withdrawCommit 0 s).commitLaw
  stored b s := .imp (bootLaw_kept.stored b s) (KeepsCommit.completeStore b s).commitLaw
  erased s := .imp (bootLaw_kept.erased s) (KeepsCommit.completeErase s).commitLaw
  outputs l s := .imp (bootLaw_kept.outputs l s) (KeepsCommit.changeOe l s).commitLaw

/-- Settles O60: the law survives every shared operation, by what each does to session, active bank and owners. -/
theorem everyStepKeepsPendingCommitsOwned : Obligations.EveryStepKeepsPendingCommitsOwned := by
  intro s t laws stepped
  refine commitLaw_kept.step (fun s l => .imp ?bootQueue ?queue) (fun s x _ => .imp ?bootTime ?time) laws stepped
  case bootQueue | bootTime => exact bootLaw_congr rfl
  case queue | time => exact (KeepsCommit.of_frame rfl rfl rfl).commitLaw

end Sys2Proof.Machine
end

section
/-! PROOFS. The OE input (R76, R77): the cases of a change of OE, and the statement put together from them. -/

namespace Sys2Proof.Machine

variable {s : State} {level : Bool}

theorem exec_oeChange : exec (.oeChange level) s = .next (changeOe level s) := rfl

theorem changeOe_same (same : s.oe = level) : changeOe level s = s := if_pos same

/-- R76, R77: in service the pins follow, and the change is reported. -/
theorem changeOe_inService (change : s.oe ≠ level) (service : s.inService = true) :
    changeOe level s = produce (outputsEvent s level) (drivePins (s.setOe level)) := by
  rw [changeOe, if_neg change, if_pos service]

/-- Before service no pin follows and nothing is reported (log 23). -/
theorem changeOe_beforeService (change : s.oe ≠ level) (closed : s.inService = false) :
    changeOe level s = s.setOe level := by
  rw [changeOe, if_neg change, if_neg (by simp [closed])]

/-- Settles O20: each clause is one case of the change. -/
theorem oeChangeGatesThePins : Obligations.OeChangeGatesThePins := by
  intro s level
  refine ⟨fun same => ?_, fun change service => ?_, fun change closed => ?_⟩
  · rw [exec_oeChange, changeOe_same same]
  · rw [exec_oeChange, changeOe_inService change service]; rfl
  · rw [exec_oeChange, changeOe_beforeService change closed]; rfl

end Sys2Proof.Machine
end

section
/-! PROOFS. CLAIM-TRACKS, RELEASE-TRACKS and SET-TRACK (R61 to R69): the cases of each request, and the three statements put
together from them. -/

namespace Sys2Proof.Machine

variable {s : State} {p : Port} {payload : List Byte}

/-! ## CLAIM-TRACKS -/

theorem reqClaimTracks_noMask (empty : word16 payload 0 = 0) : reqClaimTracks p payload s = refuseRange s 0 := by
  rw [reqClaimTracks]
  exact if_pos empty

theorem reqClaimTracks_owned {t : TrackNo} (named : word16 payload 0 ≠ 0)
    (owned : ownedByOther s p (word16 payload 0) = some t) :
    reqClaimTracks p payload s = refuse s .owned (BitVec.ofNat 16 t.val) := by
  simp only [reqClaimTracks, if_neg named, owned]

theorem reqClaimTracks_locked {t : TrackNo} (named : word16 payload 0 ≠ 0)
    (notOwned : ownedByOther s p (word16 payload 0) = none) (locked : lockedTrack s p (word16 payload 0) = some t) :
    reqClaimTracks p payload s = refuse s .locked (BitVec.ofNat 16 t.val) := by
  simp only [reqClaimTracks, if_neg named, notOwned, locked]

/-- R61: what a claim that passes both checks answers. -/
theorem reqClaimTracks_admitted (named : word16 payload 0 ≠ 0) (notOwned : ownedByOther s p (word16 payload 0) = none)
    (notLocked : lockedTrack s p (word16 payload 0) = none) :
    reqClaimTracks p payload s =
      let new := newlyClaimed s (word16 payload 0)
      let claimed := s.setTracks
        (Table.build fun t => if inMask (word16 payload 0) t then (s.track t).claimed p else s.track t)
      replyOk (produceIf (! (tracksWhere new).isEmpty) (ownerChangedEvent false (maskOf new) none (some p) 0) claimed)
        (BitVec.ofNat 16 (trackCount new)) := by
  simp only [reqClaimTracks, if_neg named, notOwned, notLocked]
  rfl

/-- R60, R62: a free track's owned mode takes its effective mode; an owned track stays. -/
theorem claimed_eq (x : Track) (p : Port) :
    x.claimed p = if x.owner.isNone then { x with owner := some { port := p, mode := x.effective } } else x := by
  unfold Track.claimed Track.effective
  cases owner : x.owner <;> rfl

/-- A claim changes the free tracks of its mask. -/
theorem claimedTracks_eq (s : State) (p : Port) (mask : Word16) :
    (Table.build fun t => if inMask mask t then (s.track t).claimed p else s.track t) =
      Table.build fun t =>
        if newlyClaimed s mask t then { s.track t with owner := some { port := p, mode := (s.track t).effective } }
        else s.track t := by
  congr 1
  funext t
  rw [claimed_eq, newlyClaimed]
  cases inMask mask t <;> rfl

/-- R62: where the mask names no free track, no track changes and nothing is reported. -/
theorem reqClaimTracks_nothingNew (named : word16 payload 0 ≠ 0)
    (notOwned : ownedByOther s p (word16 payload 0) = none) (notLocked : lockedTrack s p (word16 payload 0) = none)
    (nothing : NoTrack (newlyClaimed s (word16 payload 0))) : reqClaimTracks p payload s = replyOk s := by
  have noTracks : tracksWhere (newlyClaimed s (word16 payload 0)) = [] :=
    List.isEmpty_iff.1 ((tracksWhere_isEmpty _).2 nothing)
  have same : (Table.build fun t => if inMask (word16 payload 0) t then (s.track t).claimed p else s.track t) =
      s.tracks := by
    rw [claimedTracks_eq]
    refine Table.ext_look fun t => ?_
    rw [Table.look_build, nothing t]
    rfl
  simp only [reqClaimTracks_admitted named notOwned notLocked, same, trackCount, noTracks]
  rfl

/-- R62: the free tracks of the mask become the caller's, and the change is reported once. -/
theorem reqClaimTracks_new (named : word16 payload 0 ≠ 0) (notOwned : ownedByOther s p (word16 payload 0) = none)
    (notLocked : lockedTrack s p (word16 payload 0) = none) (something : ¬ NoTrack (newlyClaimed s (word16 payload 0))) :
    reqClaimTracks p payload s =
      let new := newlyClaimed s (word16 payload 0)
      replyOk
        (produce
          { kind := .ownerChanged, subject := 0, detail := (maskOf new).setWidth 24,
            extra := bytes24 0xFF (byteOf p.val) 0, direct := none }
          { s with
            tracks := Table.build fun t =>
              if new t then { s.track t with owner := some { port := p, mode := (s.track t).effective } }
              else s.track t })
        (BitVec.ofNat 16 (trackCount new)) := by
  have tracks : (tracksWhere (newlyClaimed s (word16 payload 0))).isEmpty = false :=
    Bool.eq_false_iff.2 (mt (tracksWhere_isEmpty _).1 something)
  simp only [reqClaimTracks_admitted named notOwned notLocked, claimedTracks_eq, tracks]
  rfl

/-- Settles O43: the searches of the request find the lowest track of each set, and a claim is its newly claimed tracks. -/
theorem claimTracksTakesFreeTracks : Obligations.ClaimTracksTakesFreeTracks := by
  intro s p seq payload accepted mask conflict locked new claimed
  refine ⟨inMask_maskOf new, fun empty => ?range, fun named => ⟨fun t lowest => ?owned, fun noConflict => ?unowned⟩⟩
  case range => exact refuses_of accepted (reqClaimTracks_noMask empty) rfl
  case owned => exact refuses_of accepted (reqClaimTracks_owned named (find_lowest lowest)) rfl
  case unowned =>
    have notOwned : ownedByOther (heard p s) p mask = none := find_noTrack noConflict
    refine ⟨fun t lowest => ?locked, fun noLock => ?admitted⟩
    case locked => exact refuses_of accepted (reqClaimTracks_locked named notOwned (find_lowest lowest)) rfl
    case admitted =>
      have notLocked : lockedTrack (heard p s) p mask = none := find_noTrack noLock
      refine ⟨fun nothing => ?_, fun something => ?_⟩
      · exact completes_of accepted (reqClaimTracks_nothingNew named notOwned notLocked nothing) rfl
      · exact completes_of accepted (reqClaimTracks_new named notOwned notLocked something) rfl

/-! ## RELEASE-TRACKS -/

theorem reqReleaseTracks_noMask (empty : word16 payload 0 = 0) : reqReleaseTracks p payload s = refuseRange s 0 := by
  rw [reqReleaseTracks]
  exact if_pos empty

theorem reqReleaseTracks_notOwned {t : TrackNo} (named : word16 payload 0 ≠ 0)
    (missing : notOwned s p (word16 payload 0) = some t) :
    reqReleaseTracks p payload s = refuse s .notOwner (BitVec.ofNat 16 t.val) := by
  simp only [reqReleaseTracks, if_neg named, missing]

theorem reqReleaseTracks_admitted (named : word16 payload 0 ≠ 0) (owned : notOwned s p (word16 payload 0) = none) :
    reqReleaseTracks p payload s = replyOk (freeTracks (inMask (word16 payload 0)) p 1 s) := by
  simp only [reqReleaseTracks, if_neg named, owned]

/-- R64, R69. -/
theorem freed_eq (x : Track) :
    x.freed =
      { x with
        owner := none
        held := if x.orphan = .hold ∧ x.effective ≠ .hold then x.level else x.held } := by
  simp [Track.freed]

/-- A release, with the freed tracks and the event spelled out. -/
theorem freeTracks_eq (f : TrackNo → Bool) (p : Port) (cause : Byte) (s : State) :
    freeTracks f p cause s =
      reevaluate .owner (tracksWhere f)
        (produce
          { kind := .ownerChanged, subject := 0, detail := (maskOf f).setWidth 24,
            extra := bytes24 (byteOf p.val) 0xFF cause, direct := none }
          { s with
            tracks := Table.build fun t =>
              if f t then
                { s.track t with
                  owner := none
                  held :=
                    if (s.track t).orphan = .hold ∧ (s.track t).effective ≠ .hold then (s.track t).level
                    else (s.track t).held }
              else s.track t }) := by
  simp only [← freed_eq]
  rfl

/-- Settles O44: the search of the request finds the lowest track that is not the caller's, and a release frees the mask. -/
theorem releaseTracksFreesTheMask : Obligations.ReleaseTracksFreesTheMask := by
  intro s p seq payload accepted mask missing freed
  refine ⟨fun empty => ?range, fun named => ⟨fun t lowest => ?notOwner, fun noMissing => ?admitted⟩⟩
  case range => exact refuses_of accepted (reqReleaseTracks_noMask empty) rfl
  case notOwner => exact refuses_of accepted (reqReleaseTracks_notOwned named (find_lowest lowest)) rfl
  case admitted =>
    have reply := reqReleaseTracks_admitted named (s := heard p s) (find_noTrack noMissing)
    rw [freeTracks_eq, maskOf_inMask] at reply
    exact completes_of accepted reply rfl

/-! ## The lowest parameter out of range -/

/-- The search for the lowest parameter out of range, where `inRange` says of each index what the list says. -/
theorem firstBad_of_spec {l : List Bool} {inRange : Nat → Prop} (spec : ∀ i, inRange i ↔ l[i]? ≠ some false) :
    (∀ i, ¬ inRange i → (∀ j, j < i → inRange j) → firstBad l = some i) ∧ ((∀ i, inRange i) → firstBad l = none) := by
  have inside {j : Nat} (ok : inRange j) (bound : j < l.length) : l[j]? = some true := by
    have notFalse := (spec j).1 ok
    rw [List.getElem?_eq_getElem bound] at notFalse ⊢
    cases value : l[j] with
    | true => rfl
    | false => exact absurd (congrArg some value) notFalse
  refine ⟨fun i bad low => ?_, fun all => firstBad_none fun j bound => inside (all j) bound⟩
  have isFalse : l[i]? = some false := Classical.not_not.1 (mt (spec i).2 bad)
  have bound : i < l.length := (List.getElem?_eq_some_iff.1 isFalse).1
  exact firstBad_some isFalse fun j lt => inside (low j lt) (Nat.lt_trans lt bound)

/-! ## SET-TRACK -/

/-- R67: the ranges of the five parameters. -/
theorem trackInRange_eq (payload : List Byte) :
    trackInRange payload =
      [decide (u8 payload 0 ≤ 15), decide (u8 payload 1 ≤ 3),
       decide (u8 payload 2 = 0 ∨ u8 payload 2 = 2 ∨ u8 payload 2 = 3), decide (u16 payload 3 ≤ 20000),
       decide (u8 payload 5 ≤ 1)] := by
  have track : u8 payload 0 < 16 ↔ u8 payload 0 ≤ 15 := by omega
  simp only [trackInRange, mode_isSome, orphan_isSome, boolOfCode_isSome, track]

theorem mode_ofCode {n : Nat} (inRange : n ≤ 3) :
    (Mode.ofCode n).getD .cam = if n = 0 then .cam else if n = 1 then .on else if n = 2 then .off else .hold := by
  match n, inRange with
  | 0, _ | 1, _ | 2, _ | 3, _ => rfl

theorem orphan_ofCode {n : Nat} (inRange : n = 0 ∨ n = 2 ∨ n = 3) :
    (Orphan.ofCode n).getD .off = if n = 0 then .cam else if n = 2 then .off else .hold := by
  obtain rfl | rfl | rfl := inRange <;> rfl

theorem boolOfCode_getD {n : Nat} (inRange : n ≤ 1) : (boolOfCode n).getD false = decide (n = 1) := by
  match n, inRange with
  | 0, _ | 1, _ => rfl

/-- R68, R69: the four values together. -/
theorem configured_eq (x : Track) (v : Int) (p : Port) (y : TrackParams) :
    x.configured v p y =
      { x with
        owner := some { port := p, mode := y.mode }
        orphan := y.orphan
        lead := y.lead
        runUnref := y.runUnref
        held := if y.mode = .hold ∧ x.effective ≠ .hold then x.level else x.held
        shift := if y.lead = x.lead then x.shift else (v * (y.lead : Int)).tdiv 1000000 } := by
  simp [Track.configured, leadShift]

theorem reqSetTrack_outOfRange {i : Nat} (bad : firstBad (trackInRange payload) = some i) :
    reqSetTrack p payload s = refuseRange s i := by
  rw [reqSetTrack, bad]

theorem reqSetTrack_notOwner {t : TrackNo} (inRange : firstBad (trackInRange payload) = none)
    (named : trackOfCode (u8 payload 0) = some t) (other : (s.track t).ownerPort ≠ some p) :
    reqSetTrack p payload s = refuse s .notOwner (portWord (s.track t).ownerPort) := by
  have notOwned : ¬ s.owns p t = true := by simpa [State.owns] using other
  simp only [reqSetTrack, inRange, named, if_neg notOwned]

theorem reqSetTrack_admitted {t : TrackNo} (inRange : firstBad (trackInRange payload) = none)
    (named : trackOfCode (u8 payload 0) = some t) (owner : (s.track t).ownerPort = some p) :
    reqSetTrack p payload s =
      replyOk
        (reevaluate .mode [t] (s.setTrack t ((s.track t).configured s.monitor.speed p (trackParams payload)))) := by
  have owned : s.owns p t = true := by simpa [State.owns] using owner
  simp only [reqSetTrack, inRange, named, if_pos owned]

/-- Settles O45: the ranges are those of the model's list, the fields carry the values that their codes name, and the request's
cases follow. -/
theorem setTrackAppliesItsFourValues : Obligations.SetTrackAppliesItsFourValues := by
  intro s p seq payload accepted inRange
  have spec (i : Nat) : inRange i ↔ (trackInRange payload)[i]? ≠ some false := by
    rw [trackInRange_eq]
    match i with
    | 0 | 1 | 3 | 4 => simp [inRange]
    | 2 => simp [inRange]; omega
    | i + 5 => simp [inRange]
  obtain ⟨lowestBad, noneBad⟩ := firstBad_of_spec spec
  refine ⟨fun i bad low => ?range, fun all => ⟨⟨u8 payload 0, Nat.lt_succ_of_le (all 0)⟩, rfl, ?_⟩⟩
  case range => exact refuses_of accepted (reqSetTrack_outOfRange (lowestBad i bad low)) rfl
  have named := trackOfCode_some (n := u8 payload 0) (t := ⟨u8 payload 0, Nat.lt_succ_of_le (all 0)⟩) rfl
  intro x before
  have params : trackParams payload = x := by
    simp only [trackParams, mode_ofCode (all 1), orphan_ofCode (all 2), boolOfCode_getD (all 4), x]
  refine ⟨fun other => ?notOwner, fun owner => ?admitted⟩
  case notOwner => exact refuses_of accepted (reqSetTrack_notOwner (noneBad all) named other) rfl
  case admitted =>
    have reply := reqSetTrack_admitted (s := heard p s) (noneBad all) named owner
    rw [params, configured_eq] at reply
    exact completes_of accepted reply rfl

end Sys2Proof.Machine
end

section
/-! PROOFS. The port reset (R152, R153): what its steps leave of the state, what it does to the tracks it frees and to the boxes
of the other ports, and the statement put together from them. -/

namespace Sys2Proof.Machine

variable {s t u : State}

/-! ## What a port takes while events are produced (R120 to R122) -/

/-- From `s` to `t` port `q` stays OPEN or not, keeps its subscription, and only takes records; none where it is not OPEN. -/
structure FilesOnly (q : Port) (s t : State) : Prop where
  isOpen : t.isOpen q = s.isOpen q
  silent : s.isOpen q = false → t.box q = s.box q
  trackMask : (t.box q).trackMask = (s.box q).trackMask
  classes : (t.box q).classes = (s.box q).classes
  queue : ∃ added, (t.box q).queue = (s.box q).queue ++ added

namespace FilesOnly

theorem of_same {q : Port} (isOpen : t.isOpen q = s.isOpen q) (box : t.box q = s.box q) : FilesOnly q s t where
  isOpen := isOpen
  silent _ := box
  trackMask := by rw [box]
  classes := by rw [box]
  queue := ⟨[], by rw [box, List.append_nil]⟩

theorem refl (q : Port) (s : State) : FilesOnly q s s := of_same rfl rfl

theorem trans {q : Port} (first : FilesOnly q s t) (second : FilesOnly q t u) : FilesOnly q s u where
  isOpen := second.isOpen.trans first.isOpen
  silent closed := (second.silent (first.isOpen.trans closed)).trans (first.silent closed)
  trackMask := second.trackMask.trans first.trackMask
  classes := second.classes.trans first.classes
  queue := by
    obtain ⟨one, queue⟩ := first.queue
    obtain ⟨more, queue'⟩ := second.queue
    exact ⟨one ++ more, by rw [queue', queue, List.append_assoc]⟩

theorem produce (q : Port) (ev : Event) (s : State) : FilesOnly q s (produce ev s) := by
  cases addressed : s.addressed ev q with
  | false => exact of_same rfl (by rw [produce_box, addressed]; rfl)
  | true =>
    have box : (Machine.produce ev s).box q = (s.box q).file (s.recordOf ev) := by rw [produce_box, addressed]; rfl
    have opened : s.isOpen q = true := by
      rw [State.addressed, Bool.and_eq_true] at addressed
      exact addressed.1
    refine ⟨rfl, fun closed => absurd (opened.symm.trans closed) (by decide), ?_, ?_, ?_⟩
    · rw [box, file_trackMask]
    · rw [box, file_classes]
    · rw [box]
      exact file_queue _ _

theorem evalTrack (q : Port) (c : EdgeCause) (s : State) (i : TrackNo) : FilesOnly q s (evalTrack c s i) := by
  unfold Machine.evalTrack
  split
  · exact refl q s
  · exact (of_same rfl rfl : FilesOnly q s (s.setTrack i _)).trans (produce q _ _)

theorem reevaluate (q : Port) (c : EdgeCause) (ts : List TrackNo) (s : State) : FilesOnly q s (reevaluate c ts s) := by
  induction ts generalizing s with
  | nil => rw [reevaluate_nil]; exact refl q s
  | cons i ts ih => rw [reevaluate_cons]; exact (evalTrack q c s i).trans (ih _)

theorem freeTracks (q : Port) (f : TrackNo → Bool) (p : Port) (cause : Byte) (s : State) :
    FilesOnly q s (freeTracks f p cause s) := by
  have freed (x : Table 16 Track) : FilesOnly q s (s.setTracks x) := of_same rfl rfl
  exact ((freed _).trans (produce q _ _)).trans (reevaluate q .owner (tracksWhere f) _)

theorem resetAxisOf (q p : Port) (c : ResetCause) (s : State) : FilesOnly q s (resetAxisOf p c s) := by
  have taken (x : Counter) : FilesOnly q s (s.setCounter x) := of_same rfl rfl
  unfold Machine.resetAxisOf
  split
  · exact (taken _).trans (produce q _ _)
  · exact refl q s

theorem resetTracksOf (q p : Port) (c : ResetCause) (s : State) : FilesOnly q s (resetTracksOf p c s) := by
  unfold Machine.resetTracksOf
  split
  · exact refl q s
  · exact freeTracks q _ p _ s

end FilesOnly

/-! ## Steps 1 and 2 of the reset -/

/-- Axis and tracks of the port have been released, the port counting as not OPEN from the start. -/
def released (p : Port) (c : ResetCause) (s : State) : State :=
  resetTracksOf p c (resetAxisOf p c (s.setPort p { s.port p with state := c.portState }))

/-- Step 1 writes the counter and the queues. -/
theorem resetAxisOf_self (p : Port) (c : ResetCause) (s : State) :
    resetAxisOf p c s =
      { s with
        counter := if s.counter.claim = some p then { s.counter with claim := none, armed := none } else s.counter
        mail := (resetAxisOf p c s).mail } := by
  unfold resetAxisOf
  split <;> rfl

/-- Step 2 writes the tracks and the queues. -/
theorem resetTracksOf_self (p : Port) (c : ResetCause) (s : State) :
    resetTracksOf p c s = { s with tracks := (resetTracksOf p c s).tracks, mail := (resetTracksOf p c s).mail } := by
  unfold resetTracksOf
  split
  · rfl
  · unfold freeTracks
    exact reevaluate_self _ _ _

theorem released_self (p : Port) (c : ResetCause) (s : State) :
    released p c s =
      { s with
        counter := if s.counter.claim = some p then { s.counter with claim := none, armed := none } else s.counter
        tracks := (released p c s).tracks
        mail := (released p c s).mail
        ports := s.ports.put p { s.port p with state := c.portState } } := by
  rw [released, resetTracksOf_self, resetAxisOf_self]
  rfl

/-- What follows the release of axis and tracks. -/
theorem portReset_eq (p : Port) (c : ResetCause) (s : State) :
    portReset p c s =
      { s with
        counter := if s.counter.claim = some p then { s.counter with claim := none, armed := none } else s.counter
        tracks := (released p c s).tracks
        session := if s.holdsSession p = true then none else s.session
        store :=
          { s.store with
            op := s.store.op.map fun o => if o.requester = some p then { o with requester := none } else o }
        mail := (released p c s).mail.put p Mailbox.reset
        ports := s.ports.put p ((s.port p).afterReset c) } := by
  have session (z : State) :
      resetSessionOf p z = { z with session := if z.holdsSession p = true then none else z.session } := by
    unfold resetSessionOf
    split <;> rfl
  have rest : portReset p c s =
      let freed := resetBoxOf p (resetRequesterOf p (resetSessionOf p (released p c s)))
      freed.setPort p ((freed.port p).afterReset c) := rfl
  rw [rest, session, released_self]
  simp only [resetBoxOf, resetRequesterOf, State.setBox, State.setMail, State.setPort, State.setPorts, State.setStore,
    State.port, Table.look_put_same, Table.put_put]
  rfl

/-! ## The causes of a reset -/

theorem ownership_eq (c : ResetCause) : c.ownership = if c = .close then 1 else 2 := by cases c <;> rfl

theorem portState_eq (c : ResetCause) : c.portState = if c = .expiry then .expired else .closed := by cases c <;> rfl

theorem endCause_eq (c : ResetCause) :
    c.endCause = if c = .close then .closedByRequest else if c = .lineBreak then .lineBreak else .expiry := by
  cases c <;> rfl

/-! ## The events of the release -/

/-- R65, R152: the axis is freed and the armed preset withdrawn, with one event. -/
theorem resetAxisOf_eq (p : Port) (c : ResetCause) (s : State) :
    resetAxisOf p c s =
      if s.counter.claim = some p then
        produce
          { kind := .ownerChanged, subject := 1, detail := (0 : Word16).setWidth 24,
            extra := bytes24 (byteOf p.val) 0xFF (if c = .close then 1 else 2), direct := none }
          { s with counter := { s.counter with claim := none, armed := none } }
      else s := by
  rw [← ownership_eq]
  rfl

/-- R65: the tracks that the port has in `s`, freed in a state `t` with the same tracks. -/
theorem resetTracksOf_eq (p : Port) (c : ResetCause) (same : t.tracks = s.tracks) :
    resetTracksOf p c t =
      if tracksWhere (s.owns p) = [] then t
      else
        reevaluate .owner (tracksWhere (s.owns p))
          (produce
            { kind := .ownerChanged, subject := 0, detail := (maskOf (s.owns p)).setWidth 24,
              extra := bytes24 (byteOf p.val) 0xFF (if c = .close then 1 else 2), direct := none }
            { t with
              tracks := Table.build fun i =>
                if s.owns p i then
                  { s.track i with
                    owner := none
                    held :=
                      if (s.track i).orphan = .hold ∧ (s.track i).effective ≠ .hold then (s.track i).level
                      else (s.track i).held }
                else s.track i }) := by
  have owns : t.owns p = s.owns p := funext fun i => by rw [State.owns, State.owns, track_congr same]
  rw [resetTracksOf, owns, freeTracks_eq, ownership_eq]
  simp only [track_congr same, List.isEmpty_iff]

/-! ## The tracks of the release -/

theorem freeTracks_track_other {f : TrackNo → Bool} {i : TrackNo} (other : f i = false) (p : Port) (cause : Byte)
    (s : State) : (freeTracks f p cause s).track i = s.track i := by
  simp [freeTracks, reevaluate_track, other]

/-- A freed track has its level, and its pin has followed where the level moved. -/
theorem freeTracks_track {f : TrackNo → Bool} {i : TrackNo} (freed : f i = true) (p : Port) (cause : Byte) (s : State) :
    let t := freeTracks f p cause s
    (t.track i).level = t.levelOf i ∧
    (t.track i).pin = if t.levelOf i = (s.track i).level then (s.track i).pin else t.levelOf i && s.oe := by
  simp only [freeTracks, reevaluate_track, reevaluate_levelOf, mem_tracksWhere, freed, if_true, evaluated_eq,
    produce_track, track_setTracks_build, produce_oe, setTracks_oe, Track.freed, true_and]

theorem resetTracksOf_cases (p : Port) (c : ResetCause) (s : State) :
    (resetTracksOf p c s = s ∧ NoTrack (s.owns p)) ∨ resetTracksOf p c s = freeTracks (s.owns p) p c.ownership s := by
  unfold resetTracksOf
  split
  · next none => exact .inl ⟨rfl, (tracksWhere_isEmpty _).1 none⟩
  · exact .inr rfl

theorem resetTracksOf_track_other {p : Port} {i : TrackNo} (other : s.owns p i = false) (c : ResetCause) :
    (resetTracksOf p c s).track i = s.track i := by
  obtain ⟨same, -⟩ | freed := resetTracksOf_cases p c s
  · rw [same]
  · rw [freed, freeTracks_track_other other]

theorem resetTracksOf_track {p : Port} {i : TrackNo} (owned : s.owns p i = true) (c : ResetCause) :
    let t := resetTracksOf p c s
    (t.track i).level = t.levelOf i ∧
    (t.track i).pin = if t.levelOf i = (s.track i).level then (s.track i).pin else t.levelOf i && s.oe := by
  obtain ⟨-, none⟩ | freed := resetTracksOf_cases p c s
  · exact absurd (owned.symm.trans (none i)) (by decide)
  · rw [freed]
    exact freeTracks_track owned _ _ _

/-! ## The whole reset -/

theorem portReset_track (p : Port) (c : ResetCause) (s : State) (i : TrackNo) :
    (portReset p c s).track i = (released p c s).track i := by
  rw [portReset_eq]
  rfl

theorem portReset_levelOf (p : Port) (c : ResetCause) (s : State) (i : TrackNo) :
    (portReset p c s).levelOf i = (released p c s).levelOf i := by
  rw [portReset_eq, released_self]
  rfl

/-- Step 5 empties the box of the port alone. -/
theorem portReset_filesOnly {p q : Port} (other : q ≠ p) (c : ResetCause) (s : State) :
    FilesOnly q s (portReset p c s) := by
  have left : FilesOnly q s (s.setPort p { s.port p with state := c.portState }) :=
    .of_same (by rw [State.isOpen, port_setPort_ne _ _ other]; rfl) rfl
  have freed : FilesOnly q s (released p c s) :=
    (left.trans (.resetAxisOf q p c _)).trans (.resetTracksOf q p c _)
  refine freed.trans (.of_same ?_ ?_)
  · rw [portReset_eq, released_self]
    simp only [State.isOpen, State.port, Table.look_put_ne _ _ other]
  · rw [portReset_eq]
    simp only [State.box, Table.look_put_ne _ _ other]

/-- Settles O28: the state after the reset, its tracks and the boxes of the other ports, each by its lemma. -/
theorem portResetReleasesEverything : Obligations.PortResetReleasesEverything := by
  intro s p c t owned told left axisFreed tracksFreed
  have axis : resetAxisOf p c (s.setPort p { s.port p with state := c.portState }) = axisFreed := by
    rw [resetAxisOf_eq, portState_eq]
    rfl
  have tracks : axisFreed.tracks = s.tracks := by rw [← axis, resetAxisOf_tracks]; rfl
  have freed : released p c s = tracksFreed := by
    rw [released, axis, resetTracksOf_eq p c tracks]
    rfl
  have owns (i : TrackNo) : axisFreed.owns p i = owned i := by rw [State.owns, track_congr tracks]
  have oe : axisFreed.oe = s.oe := by rw [← axis, resetAxisOf_oe]; rfl
  refine ⟨?whole, inMask_maskOf owned, fun i other => ?other, fun i mine => ?mine, fun q other => ?boxes⟩
  case whole =>
    simp only [t, portReset_eq, freed, PortRec.afterReset, portState_eq, endCause_eq]
    rfl
  case other =>
    rw [portReset_track, released, axis, resetTracksOf_track_other ((owns i).trans other), track_congr tracks]
  case mine =>
    have done := resetTracksOf_track ((owns i).trans mine) c
    rw [track_congr tracks, oe] at done
    rw [portReset_track, portReset_levelOf, released, axis]
    exact done
  case boxes =>
    have files := portReset_filesOnly other c s
    exact ⟨files.silent, files.trackMask, files.classes, files.queue⟩

end Sys2Proof.Machine
end

section
/-! PROOFS. What the requests of the edit session share (R83, R86, R98): the refusal of a port that does not hold the session, and
their tests of a track's owner and of the session's state. -/

namespace Sys2Proof.Machine

variable {s : State} {p : Port} {payload : List Byte} {e : EditSession} {t : TrackNo}

/-! ## A port that does not hold the session -/

/-- R83, R86, R98: NO_SESSION, for every request that answers a port without the session so. -/
theorem refuses_noSession {r : Request} {seq : Byte} (accepted : Accepts s p r seq payload)
    (asks : s.sessionOf p = none → handle r p payload (heard p s) = refuseNoSession (heard p s)) :
    (s.session = none → Refuses s p r seq payload .noSession 0xFFFF) ∧
    ∀ e, s.session = some e → e.holder ≠ p →
      Refuses s p r seq payload .noSession (BitVec.ofNat 16 e.holder.val) := by
  refine ⟨fun absent => ?_, fun e session other => ?_⟩
  · exact refuses_of accepted ((asks (sessionOf_none p absent)).trans (refuseNoSession_none absent)) rfl
  · exact refuses_of accepted ((asks (sessionOf_other session other)).trans (refuseNoSession_holder session)) rfl

/-! ## The tests of owner and state -/

/-- The test of the owner in the words of the statements. -/
theorem ownerPort_any_ne (s : State) (p : Port) (t : TrackNo) :
    (s.track t).ownerPort.any (· ≠ p) = s.foreign p t := rfl

theorem foreign_of_owner {q : Port} (owner : (s.track t).ownerPort = some q) (other : q ≠ p) : s.foreign p t = true := by
  simpa [State.foreign, owner] using other

theorem isPending_of_ne_none (pending : e.pending ≠ none) : e.isPending = true := Option.isSome_iff_ne_none.2 pending

theorem isPending_of_none (editing : e.pending = none) : e.isPending = false := by rw [EditSession.isPending, editing]; rfl

end Sys2Proof.Machine
end

section
/-! PROOFS. OPEN-EDIT (R80): the cases of the request, and the statement put together from them. -/

namespace Sys2Proof.Machine

variable {s : State} {p : Port} {payload : List Byte} {e : EditSession}

/-! ## The empty bank (R49) -/

theorem bankEmpty_eq : Bank.empty = { lists := Table.build fun _ => [], tag := 0 } := by
  have lists : (Vector.replicate 16 [] : Table 16 (List Window)) = Table.build fun _ => [] :=
    Table.ext_look fun t => by rw [Table.look_replicate, Table.look_build]
  rw [Bank.empty, lists]

theorem bankEmpty_total : Bank.empty.total = 0 := by
  simp only [Bank.total, totalOf, Bank.empty, Table.look_replicate, List.length_nil]
  rfl

/-! ## The cases of the request -/

theorem reqOpenEdit_outOfRange (start : 1 < u8 payload 0) : reqOpenEdit p payload s = refuseRange s 0 := by
  rw [reqOpenEdit, boolOfCode_none start]

theorem reqOpenEdit_otherHolder (start : u8 payload 0 ≤ 1) (session : s.session = some e) (other : e.holder ≠ p) :
    reqOpenEdit p payload s = refuse s .locked (BitVec.ofNat 16 e.holder.val) := by
  obtain ⟨empty, named, -⟩ := boolOfCode_some start
  simp only [reqOpenEdit, named, session, if_neg other]
  rfl

theorem reqOpenEdit_holder (start : u8 payload 0 ≤ 1) (session : s.session = some e) (holds : e.holder = p) :
    reqOpenEdit p payload s = refuse s .state (if e.pending.isSome then 1 else 0) := by
  obtain ⟨empty, named, -⟩ := boolOfCode_some start
  simp only [reqOpenEdit, named, session, if_pos holds]
  rfl

theorem reqOpenEdit_copy (copy : u8 payload 0 = 0) (absent : s.session = none) :
    reqOpenEdit p payload s =
      replyOk { s with session := some { holder := p, shadow := s.active, pending := none } }
        (BitVec.ofNat 16 s.active.total) := by
  simp only [reqOpenEdit, copy, absent]
  rfl

theorem reqOpenEdit_empty (empty : u8 payload 0 = 1) (absent : s.session = none) :
    reqOpenEdit p payload s =
      replyOk
        { s with
          session :=
            some { holder := p, shadow := { lists := Table.build fun _ => [], tag := 0 }, pending := none } } := by
  have reply : reqOpenEdit p payload s =
      replyOk { s with session := some { holder := p, shadow := Bank.empty, pending := none } }
        (BitVec.ofNat 16 Bank.empty.total) := by
    simp only [reqOpenEdit, empty, absent]
    rfl
  rw [reply, bankEmpty_total, bankEmpty_eq]
  rfl

/-- Settles O46: each clause is one case of the request, in the state in which it was heard. -/
theorem openEditCreatesTheSession : Obligations.OpenEditCreatesTheSession := by
  intro s p seq payload accepted
  refine ⟨fun start => ?range, fun start => ⟨fun e session other => ?locked, fun e session holds => ?state,
    fun absent copy => ?copy, fun absent empty => ?empty⟩⟩
  case range => exact refuses_of accepted (reqOpenEdit_outOfRange start) rfl
  case locked => exact refuses_of accepted (reqOpenEdit_otherHolder start session other) rfl
  case state => exact refuses_of accepted (reqOpenEdit_holder start session holds) rfl
  case copy => exact completes_of accepted (reqOpenEdit_copy copy absent) rfl
  case empty => exact completes_of accepted (reqOpenEdit_empty empty absent) rfl

end Sys2Proof.Machine
end

section
/-! PROOFS. WRITE-WINDOWS (R83, R84): the details of its refusals, its checks in their order, and the statement put together from
them. -/

namespace Sys2Proof.Machine

variable {s : State} {p : Port} {payload : List Byte} {e : EditSession} {t : TrackNo}

/-! ## The details of the refusals -/

/-- R173: the reason stands in the high byte and the index in the low byte. -/
theorem invalidDetail_eq (r : Reason) {i : Nat} (fits : i < 256) :
    invalidDetail r i = BitVec.ofNat 16 (256 * r.code.toNat + i) := by
  refine BitVec.eq_of_toNat_eq ?_
  have reason : r.code.toNat < 256 := r.code.isLt
  rw [invalidDetail, BitVec.toNat_append, byteOf_toNat fits, ← Nat.shiftLeft_add_eq_or_of_lt fits, BitVec.toNat_ofNat,
    Nat.shiftLeft_eq]
  omega

/-- R83 check 6 counts what the shadow then holds. -/
theorem total_put (b : Bank) (t : TrackNo) (ws : List Window) :
    ({ b with lists := b.lists.put t ws } : Bank).total = totalAfter b t ws := totalOf_put b.lists t ws

/-! ## The cases of the request -/

theorem reqWriteWindows_outOfRange (track : 15 < u8 payload 0) : reqWriteWindows p payload s = refuseRange s 0 := by
  rw [reqWriteWindows, trackOfCode_none track]

theorem reqWriteWindows_noSession (track : t.val = u8 payload 0) (absent : s.sessionOf p = none) :
    reqWriteWindows p payload s = refuseNoSession s := by
  simp only [reqWriteWindows, trackOfCode_some track, absent]

theorem reqWriteWindows_notOwner {q : Port} (track : t.val = u8 payload 0) (holds : s.sessionOf p = some e)
    (owner : (s.track t).ownerPort = some q) (other : q ≠ p) :
    reqWriteWindows p payload s = refuse s .notOwner (BitVec.ofNat 16 q.val) := by
  simp only [reqWriteWindows, trackOfCode_some track, holds, ownerPort_any_ne, foreign_of_owner owner other, if_true]
  rw [owner]
  rfl

theorem reqWriteWindows_pending (track : t.val = u8 payload 0) (holds : s.sessionOf p = some e)
    (owned : s.foreign p t = false) (pending : e.pending ≠ none) :
    reqWriteWindows p payload s = refuse s .state 1 := by
  simp only [reqWriteWindows, trackOfCode_some track, holds, ownerPort_any_ne, owned, isPending_of_ne_none pending,
    Bool.false_eq_true, if_false, if_true]

theorem reqWriteWindows_invalid {r : Reason} {i : Nat} (track : t.val = u8 payload 0) (holds : s.sessionOf p = some e)
    (owned : s.foreign p t = false) (editing : e.pending = none)
    (invalid : checkList s.counter.modulus (windowsOf payload) = some (r, i)) :
    reqWriteWindows p payload s = refuse s .invalidWindows (BitVec.ofNat 16 (256 * r.code.toNat + i)) := by
  have fits : i < 256 := Nat.lt_of_le_of_lt (checkList_index invalid) (by decide)
  simp only [reqWriteWindows, trackOfCode_some track, holds, ownerPort_any_ne, owned, isPending_of_none editing,
    invalid, invalidDetail_eq r fits, Bool.false_eq_true, if_false]

theorem reqWriteWindows_poolFull (track : t.val = u8 payload 0) (holds : s.sessionOf p = some e)
    (owned : s.foreign p t = false) (editing : e.pending = none)
    (valid : checkList s.counter.modulus (windowsOf payload) = none)
    (full : 96 < totalAfter e.shadow t (windowsOf payload)) :
    reqWriteWindows p payload s =
      refuse s .poolFull (BitVec.ofNat 16 (totalAfter e.shadow t (windowsOf payload))) := by
  simp only [reqWriteWindows, trackOfCode_some track, holds, ownerPort_any_ne, owned, isPending_of_none editing, valid,
    Bool.false_eq_true, if_false, if_pos full]

/-- R84. -/
theorem reqWriteWindows_admitted (track : t.val = u8 payload 0) (holds : s.sessionOf p = some e)
    (owned : s.foreign p t = false) (editing : e.pending = none)
    (valid : checkList s.counter.modulus (windowsOf payload) = none)
    (room : totalAfter e.shadow t (windowsOf payload) ≤ 96) :
    reqWriteWindows p payload s =
      replyOk
        { s with
          session := some { e with shadow := { e.shadow with lists := e.shadow.lists.put t (windowsOf payload) } } }
        (BitVec.ofNat 16 (totalAfter e.shadow t (windowsOf payload))) := by
  simp only [reqWriteWindows, trackOfCode_some track, holds, ownerPort_any_ne, owned, isPending_of_none editing, valid,
    Bool.false_eq_true, if_false, if_neg (Nat.not_lt.2 room), total_put]
  rfl

/-- Settles O47: each clause is one case of the request, in the order of its checks. -/
theorem writeWindowsReplacesOneList : Obligations.WriteWindowsReplacesOneList := by
  intro s p seq payload accepted ws
  refine ⟨fun track => ?range, fun t track => ?inRange⟩
  case range => exact refuses_of accepted (reqWriteWindows_outOfRange track) rfl
  case inRange =>
    obtain ⟨noSession, otherHolder⟩ := refuses_noSession accepted fun absent => reqWriteWindows_noSession track absent
    refine ⟨noSession, otherHolder, fun e session holder => ?_⟩
    have holds : (heard p s).sessionOf p = some e := sessionOf_holder session holder
    refine ⟨fun q other owner => ?notOwner, fun owned => ?owned⟩
    case notOwner => exact refuses_of accepted (reqWriteWindows_notOwner track holds owner other) rfl
    case owned =>
      refine ⟨fun pending => ?pending, fun editing => ⟨fun r i invalid => ?invalid, fun valid => ⟨fun full => ?full,
        fun room => ?room⟩⟩⟩
      case pending => exact refuses_of accepted (reqWriteWindows_pending track holds owned pending) rfl
      case invalid => exact refuses_of accepted (reqWriteWindows_invalid track holds owned editing invalid) rfl
      case full => exact refuses_of accepted (reqWriteWindows_poolFull track holds owned editing valid full) rfl
      case room => exact completes_of accepted (reqWriteWindows_admitted track holds owned editing valid room) rfl

end Sys2Proof.Machine
end

section
/-! PROOFS. COMMIT (R86 to R89, R95): the ranges and the values of its parameters, the changed tracks, the request's cases, and
the statement put together from them. -/

namespace Sys2Proof.Machine

variable {s : State} {p : Port} {payload : List Byte} {e : EditSession}

/-! ## The parameters -/

/-- R86: any tag is in range. -/
theorem commitInRange_eq (payload : List Byte) (m : Nat) :
    commitInRange payload m =
      [true, decide (u8 payload 2 ≤ 3), decide (u24 payload 3 < m), decide (u8 payload 6 ≤ 2),
       decide (u16 payload 7 ≤ 60000)] := by
  simp only [commitInRange, condition_isSome, swapDir_isSome]

theorem condition_ofCode {n : Nat} (deferred : 1 ≤ n) (inRange : n ≤ 3) :
    conditionOfCode n = some (some (if n = 1 then .atPosition else if n = 2 then .atIndex else .atRest)) := by
  match n, deferred, inRange with
  | 1, _, _ | 2, _, _ | 3, _, _ => rfl

theorem swapDir_ofCode {n : Nat} (inRange : n ≤ 2) :
    (SwapDir.ofCode n).getD .either = if n = 0 then .up else if n = 1 then .down else .either := by
  match n, inRange with
  | 0, _ | 1, _ | 2, _ => rfl

/-- R89: what is kept of a deferred commit. -/
theorem pendingOf_eq (c : Condition) (now : Word32) (direction : u8 payload 6 ≤ 2) :
    pendingOf payload c now =
      { condition := c
        position := u24 payload 3
        direction := if u8 payload 6 = 0 then .up else if u8 payload 6 = 1 then .down else .either
        timeout := u16 payload 7, accepted := now
        deadline := if u16 payload 7 = 0 then none else some (now + BitVec.ofNat 32 (1000 * u16 payload 7))
        tag := word16 payload 0 } := by
  rw [pendingOf, swapDir_ofCode direction, Nat.mul_comm (u16 payload 7) 1000]

/-! ## The changed tracks (R46, R87) -/

theorem changedTracks_eq (s : State) (e : EditSession) : changedTracks e.shadow s.active = tracksWhere (s.changed e) := rfl

/-- The search for a changed track of another port goes through the tracks in ascending order. -/
theorem foreignChange_eq (s : State) (p : Port) (e : EditSession) :
    foreignChange s p e.shadow = (Table.numbers 16).find? fun t => s.changed e t && s.foreign p t := by
  rw [foreignChange, changedTracks_eq, tracksWhere, List.find?_filter]
  congr 1
  funext t
  rw [ownerPort_any_ne, Bool.eq_iff_iff, decide_eq_true_eq, Bool.and_eq_true]

theorem foreignChange_some {t : TrackNo} (lowest : Lowest (fun t => s.changed e t && s.foreign p t) t) :
    foreignChange s p e.shadow = some t := (foreignChange_eq s p e).trans (find_lowest lowest)

theorem foreignChange_none (owned : NoTrack fun t => s.changed e t && s.foreign p t) :
    foreignChange s p e.shadow = none := (foreignChange_eq s p e).trans (find_noTrack owned)

/-! ## The cases of the request -/

theorem reqCommit_outOfRange {i : Nat} (bad : firstBad (commitInRange payload s.counter.modulus) = some i) :
    reqCommit p payload s = refuseRange s i := by
  rw [reqCommit, bad]

theorem reqCommit_noSession (inRange : firstBad (commitInRange payload s.counter.modulus) = none)
    (absent : s.sessionOf p = none) : reqCommit p payload s = refuseNoSession s := by
  simp only [reqCommit, inRange, absent]

theorem reqCommit_notOwner {t : TrackNo} (inRange : firstBad (commitInRange payload s.counter.modulus) = none)
    (holds : s.sessionOf p = some e) (foreign : foreignChange s p e.shadow = some t) :
    reqCommit p payload s = refuse s .notOwner (BitVec.ofNat 16 t.val) := by
  simp only [reqCommit, inRange, holds, foreign]

theorem reqCommit_pending (inRange : firstBad (commitInRange payload s.counter.modulus) = none)
    (holds : s.sessionOf p = some e) (owned : foreignChange s p e.shadow = none) (pending : e.pending ≠ none) :
    reqCommit p payload s = refuse s .state 1 := by
  simp only [reqCommit, inRange, holds, owned, if_pos (isPending_of_ne_none pending)]

/-- R88. -/
theorem reqCommit_immediate (inRange : firstBad (commitInRange payload s.counter.modulus) = none)
    (holds : s.sessionOf p = some e) (owned : foreignChange s p e.shadow = none) (editing : e.pending = none)
    (immediate : u8 payload 2 = 0) :
    reqCommit p payload s =
      replyOk (swapped e (word16 payload 0) s) (BitVec.ofNat 16 (trackCount (s.changed e))) := by
  simp only [reqCommit, inRange, holds, owned, isPending_of_none editing, Bool.false_eq_true, if_false, immediate,
    changedTracks_eq, swapWith_swapped]
  rfl

/-- R89. -/
theorem reqCommit_deferred {c : Condition} (inRange : firstBad (commitInRange payload s.counter.modulus) = none)
    (holds : s.sessionOf p = some e) (owned : foreignChange s p e.shadow = none) (editing : e.pending = none)
    (deferred : conditionOfCode (u8 payload 2) = some (some c)) :
    reqCommit p payload s =
      replyPending { s with session := some { e with pending := some (pendingOf payload c s.time) } }
        (BitVec.ofNat 16 (trackCount (s.changed e))) := by
  simp only [reqCommit, inRange, holds, owned, isPending_of_none editing, Bool.false_eq_true, if_false, deferred,
    Option.getD_some, changedTracks_eq]
  rfl

/-- Settles O49: the ranges are those of the model's list, the search finds the lowest changed track of another port, and the
request's cases follow. -/
theorem commitSwapsOrWaits : Obligations.CommitSwapsOrWaits := by
  intro s p seq payload accepted tag inRange
  have spec (i : Nat) : inRange i ↔ (commitInRange payload s.counter.modulus)[i]? ≠ some false := by
    rw [commitInRange_eq]
    match i with
    | 0 | 1 | 2 | 3 | 4 => simp [inRange]
    | i + 5 => simp [inRange]
  obtain ⟨lowestBad, noneBad⟩ := firstBad_of_spec spec
  refine ⟨fun i bad low => ?range, fun all => ?inRange⟩
  case range => exact refuses_of accepted (reqCommit_outOfRange (lowestBad i bad low)) rfl
  case inRange =>
    have passes := noneBad all
    obtain ⟨noSession, otherHolder⟩ := refuses_noSession accepted fun absent => reqCommit_noSession passes absent
    refine ⟨noSession, otherHolder, fun e session holder => ?_⟩
    have holds : (heard p s).sessionOf p = some e := sessionOf_holder session holder
    refine ⟨fun t lowest => ?notOwner, fun noForeign => ?owned⟩
    case notOwner => exact refuses_of accepted (reqCommit_notOwner passes holds (foreignChange_some lowest)) rfl
    case owned =>
      have owned : foreignChange (heard p s) p e.shadow = none := foreignChange_none noForeign
      refine ⟨fun pending => ?pending, fun editing => ⟨fun immediate => ?immediate, fun deferred => ?deferred⟩⟩
      case pending => exact refuses_of accepted (reqCommit_pending passes holds owned pending) rfl
      case immediate =>
        subst holder
        exact completes_of accepted (reqCommit_immediate passes holds owned editing immediate) rfl
      case deferred =>
        have reply := reqCommit_deferred (s := heard p s) passes holds owned editing (condition_ofCode deferred (all 1))
        rw [pendingOf_eq _ _ (all 3)] at reply
        exact completes_of accepted reply rfl

end Sys2Proof.Machine
end

section
/-! PROOFS. ABORT-EDIT and the commit deadline (R96, R98, R99): what ends a session or a pending commit, the request's cases, the
deadline, and the statement put together from them. -/

namespace Sys2Proof.Machine

variable {s : State} {p : Port} {payload : List Byte} {e : EditSession} {pc : PendingCommit}

/-! ## The ends of a session and of a pending commit -/

theorem endSession_editing (session : s.session = some e) (editing : e.pending = none) :
    endSession s = { s with session := none } := by
  simp only [endSession, session, editing]
  rfl

/-- R98: cause END. -/
theorem endSession_reports (session : s.session = some e) (pending : e.pending = some pc) :
    endSession s =
      produce
        { kind := .commitWithdrawn, subject := byteOf e.holder.val, detail := bytes24 2 0 0 ||| pc.tag.setWidth 24,
          extra := s.counter.turns.setWidth 24, direct := some e.holder }
        { s with session := none } := by
  simp only [endSession, session, pending, commitWithdrawnEvent_eq]
  rfl

/-- R96, R99. -/
theorem withdrawCommit_reports (cause : Byte) (session : s.session = some e) (pending : e.pending = some pc) :
    withdrawCommit cause s =
      produce
        { kind := .commitWithdrawn, subject := byteOf e.holder.val, detail := bytes24 cause 0 0 ||| pc.tag.setWidth 24,
          extra := s.counter.turns.setWidth 24, direct := some e.holder }
        { s with session := some { e with pending := none } } := by
  simp only [withdrawCommit, session, pending, commitWithdrawnEvent_eq]
  rfl

/-! ## The cases of the request -/

theorem reqAbortEdit_outOfRange (option : 1 < u8 payload 0) : reqAbortEdit p payload s = refuseRange s 0 := by
  rw [reqAbortEdit, boolOfCode_none option]

theorem reqAbortEdit_noSession (option : u8 payload 0 ≤ 1) (absent : s.sessionOf p = none) :
    reqAbortEdit p payload s = refuseNoSession s := by
  obtain ⟨withdraw, named, -⟩ := boolOfCode_some option
  simp only [reqAbortEdit, named, absent]

theorem reqAbortEdit_end (option : u8 payload 0 = 0) (holds : s.sessionOf p = some e) :
    reqAbortEdit p payload s = replyOk (endSession s) := by
  simp only [reqAbortEdit, option, boolOfCode, holds]
  rfl

theorem reqAbortEdit_nothingPending (option : u8 payload 0 = 1) (holds : s.sessionOf p = some e)
    (editing : e.pending = none) : reqAbortEdit p payload s = refuse s .state 0 := by
  simp only [reqAbortEdit, option, boolOfCode, holds, isPending_of_none editing]
  rfl

theorem reqAbortEdit_withdraw (option : u8 payload 0 = 1) (holds : s.sessionOf p = some e)
    (pending : e.pending ≠ none) : reqAbortEdit p payload s = replyOk (withdrawCommit 1 s) := by
  simp only [reqAbortEdit, option, boolOfCode, holds, isPending_of_ne_none pending]
  rfl

/-! ## The deadline -/

theorem exec_commitTimeout : exec .commitTimeout s = .next (if s.commitDue then withdrawCommit 0 s else s) := rfl

/-- Cause TIMEOUT is 0, so the detail is the tag alone. -/
theorem timeoutDetail_eq (tag : Word16) : bytes24 0 0 0 ||| tag.setWidth 24 = tag.setWidth 24 := BitVec.zero_or

theorem not_commitDue
    (early : ∀ e pc, s.session = some e → e.pending = some pc →
      pc.timeout = 0 ∨ (s.time - pc.accepted).toNat < pc.timeout * 1000) : ¬ s.commitDue = true := by
  rw [commitDue_iff]
  rintro ⟨e, pc, session, pending, timed, passed⟩
  obtain untimed | running := early e pc session pending
  · exact timed untimed
  · omega

/-- Settles O50: the request's cases with what each leaves of the session, and the two sides of the deadline. -/
theorem pendingCommitsEndByRequestOrDeadline : Obligations.PendingCommitsEndByRequestOrDeadline := by
  refine ⟨fun s p seq payload accepted => ⟨fun option => ?range, fun option => ?inRange⟩, fun s =>
    ⟨fun e pc session pending timed passed => ?due, fun early => ?notDue⟩⟩
  case range => exact refuses_of accepted (reqAbortEdit_outOfRange option) rfl
  case inRange =>
    obtain ⟨noSession, otherHolder⟩ := refuses_noSession accepted fun absent => reqAbortEdit_noSession option absent
    refine ⟨noSession, otherHolder, fun e session holder => ?_⟩
    subst holder
    have here : (heard e.holder s).session = some e := session
    have holds : (heard e.holder s).sessionOf e.holder = some e := sessionOf_holder here rfl
    refine ⟨fun ends editing => ?_, fun pc ends pending => ?_, fun withdraws editing => ?_, fun pc withdraws pending => ?_⟩
    · have reply := reqAbortEdit_end ends holds
      rw [endSession_editing here editing] at reply
      exact completes_of accepted reply rfl
    · have reply := reqAbortEdit_end ends holds
      rw [endSession_reports here pending] at reply
      exact completes_of accepted reply rfl
    · exact refuses_of accepted (reqAbortEdit_nothingPending withdraws holds editing) rfl
    · have reply := reqAbortEdit_withdraw withdraws holds (Option.ne_none_iff_exists'.2 ⟨pc, pending⟩)
      rw [withdrawCommit_reports 1 here pending] at reply
      exact completes_of accepted reply rfl
  case due =>
    rw [exec_commitTimeout, if_pos ((commitDue_iff s).2 ⟨e, pc, session, pending, timed, passed⟩),
      withdrawCommit_reports 0 session pending, timeoutDetail_eq]
  case notDue => rw [exec_commitTimeout, if_neg (not_commitDue early)]

end Sys2Proof.Machine
end

section
/-! PROOFS. Generations (R104, R105, R115): what the search for the highest generation means for STORE-SLOT, and that a generation
it gives is above every VALID one. -/

namespace Sys2Proof.Machine

variable {s : State} {slots : Table 4 Slot}

/-- No VALID slot has the last generation. -/
def Unexhausted (slots : Table 4 Slot) : Prop := ∀ i g, slots.look i = .valid g → g.generation ≠ 0xFFFFFFFF

theorem toNat_lt_of_ne_last {n : Word32} (below : n ≠ 0xFFFFFFFF) : n.toNat < 4294967295 := by
  have := n.isLt
  have : n.toNat ≠ 4294967295 := fun last => below (BitVec.eq_of_toNat_eq last)
  omega

theorem highestValid_none (absent : highestValid slots = none) (i : SlotNo) (g : Image) : slots.look i ≠ .valid g :=
  fun valid => highest_none absent i g ⟨valid, rfl⟩

/-- The search's answer is a VALID slot, and no VALID slot has a higher generation. -/
theorem highestValid_some {b : BootRecord} (found : highestValid slots = some b) :
    (∃ g, slots.look b.slot = .valid g ∧ b.generation = g.generation) ∧
    ∀ i g, slots.look i = .valid g →
      g.generation.toNat ≤ b.generation.toNat ∧ (i < b.slot → g.generation.toNat < b.generation.toNat) := by
  obtain ⟨⟨g, ⟨valid, -⟩, generation⟩, bound⟩ := highest_some found
  exact ⟨⟨g, valid, generation⟩, fun i g valid => bound i g ⟨valid, rfl⟩⟩

/-- R104: the refusal names the lowest slot of the last generation. -/
theorem exhausted_some {j : SlotNo} {g : Image} (valid : slots.look j = .valid g) (last : g.generation = 0xFFFFFFFF)
    (lowest : ∀ k h, k < j → slots.look k = .valid h → h.generation ≠ 0xFFFFFFFF) : exhausted slots = some j := by
  unfold exhausted
  cases found : highestValid slots with
  | none => exact absurd valid (highestValid_none found j g)
  | some b =>
    obtain ⟨⟨h, validB, generation⟩, bound⟩ := highestValid_some found
    obtain ⟨atMost, below⟩ := bound j g valid
    have lastB : b.generation = 0xFFFFFFFF := by
      refine Decidable.byContradiction fun notLast => ?_
      have := toNat_lt_of_ne_last notLast
      rw [last] at atMost
      exact absurd atMost (by simpa using this)
    have same : b.slot = j := by
      rcases Nat.lt_trichotomy b.slot.val j.val with lower | same | higher
      · exact absurd (generation.symm.trans lastB) (lowest _ h lower validB)
      · exact Fin.ext same
      · rw [last, lastB] at below
        exact absurd (below higher) (Nat.lt_irrefl _)
    simp [lastB, same]

theorem exhausted_none (room : Unexhausted slots) : exhausted slots = none := by
  unfold exhausted
  cases found : highestValid slots with
  | none => rfl
  | some b =>
    obtain ⟨⟨g, valid, generation⟩, -⟩ := highestValid_some found
    have notLast : b.generation ≠ 0xFFFFFFFF := generation ▸ room _ g valid
    exact if_neg notLast

theorem unexhausted_of_exhausted_none (room : exhausted slots = none) : Unexhausted slots := by
  intro i g valid last
  unfold exhausted at room
  cases found : highestValid slots with
  | none => exact highestValid_none found i g valid
  | some b =>
    obtain ⟨atMost, -⟩ := (highestValid_some found).2 i g valid
    have notLast : b.generation ≠ 0xFFFFFFFF := by simpa [found] using room
    have := toNat_lt_of_ne_last notLast
    rw [last] at atMost
    exact absurd atMost (by simpa using this)

/-- R105: where no slot is VALID the first generation is 1. -/
theorem nextGeneration_first (absent : ∀ i g, slots.look i ≠ .valid g) : nextGeneration slots = 1 := by
  unfold nextGeneration
  cases found : highestValid slots with
  | none => rfl
  | some b =>
    obtain ⟨⟨g, valid, -⟩, -⟩ := highestValid_some found
    exact absurd valid (absent _ g)

/-- R105: otherwise it is one more than the highest, which has room for that. -/
theorem nextGeneration_succ (room : Unexhausted slots) (present : ∃ i g, slots.look i = .valid g) :
    ∃ i g, slots.look i = .valid g ∧ (nextGeneration slots).toNat = g.generation.toNat + 1 ∧
      ∀ j h, slots.look j = .valid h → h.generation.toNat ≤ g.generation.toNat := by
  unfold nextGeneration
  cases found : highestValid slots with
  | none =>
    obtain ⟨i, g, valid⟩ := present
    exact absurd valid (highestValid_none found i g)
  | some b =>
    obtain ⟨⟨g, valid, generation⟩, bound⟩ := highestValid_some found
    have := toNat_lt_of_ne_last (room _ g valid)
    refine ⟨b.slot, g, valid, ?_, fun j h validH => ?_⟩
    · simp only [generation, BitVec.toNat_add]
      exact Nat.mod_eq_of_lt (Nat.succ_lt_succ this)
    · obtain ⟨atMost, -⟩ := bound j h validH
      exact generation ▸ atMost

/-- R105: the generation given is above every VALID one. -/
theorem lt_nextGeneration (room : Unexhausted slots) {j : SlotNo} {h : Image} (valid : slots.look j = .valid h) :
    h.generation.toNat < (nextGeneration slots).toNat := by
  obtain ⟨i, g, -, succ, bound⟩ := nextGeneration_succ room ⟨j, h, valid⟩
  have := bound j h valid
  omega

end Sys2Proof.Machine
end

section
/-! PROOFS. The program store's operations as equations (R105 to R109, R113, R114): what each writes of the state. -/

namespace Sys2Proof.Machine

variable {s : State} {i j : SlotNo} {r : Option Port} {g : Image}

/-! ## Wholeness (R103) -/

theorem whole_image_some {agrees : Bool} {h : Image} :
    (Contents.image g agrees).whole = some h ↔ g = h ∧ agrees = true ∧ g.wellMade = true := by
  simp [Contents.whole, and_comm]

theorem whole_some {c : Contents} (whole : c.whole = some g) : c = .image g true ∧ g.wellMade = true := by
  cases c with
  | torn => cases whole
  | image h agrees =>
    obtain ⟨rfl, rfl, made⟩ := whole_image_some.1 whole
    exact ⟨rfl, made⟩

/-! ## Completions (R106, R109) -/

theorem completeStore_valid {cellsHold : Bool} (op : s.store.op = some { kind := .store, slot := i, requester := r })
    (writing : s.slot i = .writing g) (whole : (Contents.image g cellsHold).whole = some g) :
    completeStore cellsHold s = endStore (produce (storeDoneEvent i g.generation r) s) i (.valid g) := by
  simp only [completeStore, op, writing, whole]

theorem completeStore_damaged {cellsHold : Bool} (op : s.store.op = some { kind := .store, slot := i, requester := r })
    (writing : s.slot i = .writing g) (bad : (Contents.image g cellsHold).whole = none) :
    completeStore cellsHold s = endStore (produce (storeFailedEvent s i r) s) i (.damaged (.image g cellsHold)) := by
  simp only [completeStore, op, writing, bad]

theorem completeErase_empty (op : s.store.op = some { kind := .erase, slot := i, requester := r }) :
    completeErase s = endStore (produce (eraseDoneEvent s i r) s) i .empty := by
  simp only [completeErase, op]

/-- A completion of a store while none is in flight. -/
theorem completeStore_other (cellsHold : Bool) (other : ∀ o, s.store.op = some o → o.kind = .erase) :
    completeStore cellsHold s = s := by
  unfold completeStore
  split
  · next op => cases other _ op
  · rfl

theorem completeErase_other (other : ∀ o, s.store.op = some o → o.kind = .store) : completeErase s = s := by
  unfold completeErase
  split
  · next op => cases other _ op
  · rfl

/-- Settles O21: a completion of the operation in flight by its outcome, and one of an operation that is not. -/
theorem storeOperationsComplete : Obligations.StoreOperationsComplete := by
  refine ⟨fun s i r g cellsHold op writing => ⟨fun whole => ?done, fun bad => ?failed⟩, fun s i r op => ?erased,
    fun s => ⟨fun other cellsHold => ?noStore, fun other => ?noErase⟩⟩
  case done => exact congrArg Host.Outcome.next (completeStore_valid op writing whole)
  case failed => exact congrArg Host.Outcome.next (completeStore_damaged op writing bad)
  case erased => exact congrArg Host.Outcome.next (completeErase_empty op)
  case noStore => exact congrArg Host.Outcome.next (completeStore_other cellsHold other)
  case noErase => exact congrArg Host.Outcome.next (completeErase_other other)

end Sys2Proof.Machine
end

section
/-! PROOFS. The power-up load (R103, R114, R115): when contents are whole, how each slot is judged, and the choice of the boot
image. -/

namespace Sys2Proof.Machine

variable {slots : Table 4 Slot} {i j : SlotNo} {c : Contents} {g h : Image}

/-! ## Wholeness, test by test (R103) -/

theorem validLists_iff :
    ((Table.numbers 16).all fun t => (checkList g.modulus (g.lists.look t)).isNone) = true ↔
      ∀ t, ValidList g.modulus (g.lists.look t) := by
  have valid (t : TrackNo) : checkList g.modulus (g.lists.look t) = none ↔ ValidList g.modulus (g.lists.look t) :=
    (validityCheckPassesTheValidLists _ _).1
  simp [valid]

theorem wellMade_iff :
    g.wellMade = true ↔
      1 ≤ g.generation.toNat ∧ (2 ≤ g.modulus ∧ g.modulus ≤ 16777216) ∧
      (1 ≤ g.samplePeriod ∧ g.samplePeriod ≤ 1000) ∧ g.overspeedLimit ≤ 16000000 ∧ g.driftTolerance ≤ 255 ∧
      (∀ t, (g.settings.look t).lead ≤ 20000) ∧ (∀ t, ValidList g.modulus (g.lists.look t)) ∧
      ((Table.numbers 16).map fun t => (g.lists.look t).length).sum ≤ 96 := by
  have leads : ((Table.numbers 16).all fun t => (g.settings.look t).lead ≤ 20000) = true ↔
      ∀ t, (g.settings.look t).lead ≤ 20000 := by simp
  simp only [Image.wellMade, Bool.and_eq_true, decide_eq_true_eq, validLists_iff, leads, and_assoc]
  rfl

theorem whole_some_iff : c.whole = some g ↔ c = .image g true ∧ g.wellMade = true := by
  refine ⟨whole_some, ?_⟩
  rintro ⟨rfl, made⟩
  exact whole_image_some.2 ⟨rfl, rfl, made⟩

/-! ## The judgement of a slot (R114) -/

/-- Slot `i` reads whole with this image. -/
def ReadsWhole (slots : Table 4 Slot) (i : SlotNo) (g : Image) : Prop :=
  ∃ c, (slots.look i).contents = some c ∧ c.whole = some g

theorem lowerTwin_iff :
    lowerTwin slots i g = true ↔ ∃ j h, j < i ∧ ReadsWhole slots j h ∧ h.generation = g.generation := by
  simp only [lowerTwin, ReadsWhole, List.any_eq_true, Table.mem_numbers, true_and, Bool.and_eq_true, decide_eq_true_eq,
    Option.any_eq_true, Option.bind_eq_some_iff]
  constructor
  · rintro ⟨j, lower, h, reads, same⟩
    exact ⟨j, h, lower, reads, same⟩
  · rintro ⟨j, h, lower, reads, same⟩
    exact ⟨j, lower, h, reads, same⟩

theorem judgeSlot_empty (absent : (slots.look i).contents = none) : judgeSlot slots i = .empty := by
  simp only [judgeSlot, absent]

theorem judgeSlot_bad (contents : (slots.look i).contents = some c) (bad : c.whole = none) :
    judgeSlot slots i = .damaged c := by
  simp only [judgeSlot, contents, bad]

theorem judgeSlot_twin (contents : (slots.look i).contents = some c) (whole : c.whole = some g)
    (twin : ∃ j h, j < i ∧ ReadsWhole slots j h ∧ h.generation = g.generation) : judgeSlot slots i = .damaged c := by
  simp only [judgeSlot, contents, whole, if_pos (lowerTwin_iff.2 twin)]

theorem judgeSlot_valid (contents : (slots.look i).contents = some c) (whole : c.whole = some g)
    (first : ¬ ∃ j h, j < i ∧ ReadsWhole slots j h ∧ h.generation = g.generation) : judgeSlot slots i = .valid g := by
  simp only [judgeSlot, contents, whole, if_neg (mt lowerTwin_iff.1 first)]

/-- What the judgement can be: EMPTY, DAMAGED, or VALID with a whole image whose generation no lower whole image has. -/
theorem judgeSlot_cases (slots : Table 4 Slot) (i : SlotNo) :
    judgeSlot slots i = .empty ∨ (∃ c, judgeSlot slots i = .damaged c) ∨
    ∃ g, judgeSlot slots i = .valid g ∧ ReadsWhole slots i g ∧
      ¬ ∃ j h, j < i ∧ ReadsWhole slots j h ∧ h.generation = g.generation := by
  cases contents : (slots.look i).contents with
  | none => exact .inl (judgeSlot_empty contents)
  | some c =>
    cases whole : c.whole with
    | none => exact .inr (.inl ⟨c, judgeSlot_bad contents whole⟩)
    | some g =>
      by_cases twin : ∃ j h, j < i ∧ ReadsWhole slots j h ∧ h.generation = g.generation
      · exact .inr (.inl ⟨c, judgeSlot_twin contents whole twin⟩)
      · exact .inr (.inr ⟨g, judgeSlot_valid contents whole twin, ⟨c, contents, whole⟩, twin⟩)

theorem of_judgeSlot_valid (valid : judgeSlot slots i = .valid g) :
    ReadsWhole slots i g ∧ ¬ ∃ j h, j < i ∧ ReadsWhole slots j h ∧ h.generation = g.generation := by
  obtain empty | ⟨c, damaged⟩ | ⟨h, judged, reads, first⟩ := judgeSlot_cases slots i
  · cases empty.symm.trans valid
  · cases damaged.symm.trans valid
  · cases judged.symm.trans valid
    exact ⟨reads, first⟩

/-- No judged slot is in WRITING or ERASING. -/
theorem judgeSlot_inFlight (slots : Table 4 Slot) (i : SlotNo) : (judgeSlot slots i).inFlight = false := by
  obtain empty | ⟨c, damaged⟩ | ⟨g, valid, -⟩ := judgeSlot_cases slots i
  · rw [empty]; rfl
  · rw [damaged]; rfl
  · rw [valid]; rfl

/-- VALID slots carry different generations: of two whole images of one generation the higher slot's is DAMAGED. -/
theorem judgeSlot_distinct (validI : judgeSlot slots i = .valid g) (validJ : judgeSlot slots j = .valid h)
    (same : g.generation = h.generation) : i = j := by
  obtain ⟨readsI, firstI⟩ := of_judgeSlot_valid validI
  obtain ⟨readsJ, firstJ⟩ := of_judgeSlot_valid validJ
  rcases Nat.lt_trichotomy i.val j.val with lower | equal | higher
  · exact absurd ⟨i, g, lower, readsI, same⟩ firstJ
  · exact Fin.ext equal
  · exact absurd ⟨j, h, higher, readsJ, same.symm⟩ firstI

@[simp] theorem judgeSlots_look (slots : Table 4 Slot) (i : SlotNo) : (judgeSlots slots).look i = judgeSlot slots i := by
  simp [judgeSlots]

/-! ## The boot image (R115) -/

/-- With different generations the boot candidate is the one with the highest, and no other. -/
theorem bootCandidate_iff {b : BootRecord}
    (distinct : ∀ i j g h, slots.look i = .valid g → slots.look j = .valid h → g.generation = h.generation → i = j) :
    bootCandidate slots = some b ↔
      ∃ g, slots.look b.slot = .valid g ∧ g.boot = true ∧ b.generation = g.generation ∧
        ∀ j h, slots.look j = .valid h → h.boot = true → h.generation.toNat ≤ g.generation.toNat := by
  constructor
  · intro found
    obtain ⟨⟨g, ⟨valid, boot⟩, generation⟩, bound⟩ := highest_some found
    refine ⟨g, valid, boot, generation, fun j h validJ bootJ => ?_⟩
    obtain ⟨atMost, -⟩ := bound j h ⟨validJ, bootJ⟩
    exact generation ▸ atMost
  · rintro ⟨g, valid, boot, generation, bound⟩
    cases found : bootCandidate slots with
    | none => exact absurd ⟨valid, boot⟩ (highest_none found b.slot g)
    | some d =>
      obtain ⟨⟨h, ⟨validD, bootD⟩, generationD⟩, boundD⟩ := highest_some found
      have atMost : g.generation.toNat ≤ h.generation.toNat := generationD ▸ (boundD b.slot g ⟨valid, boot⟩).1
      have same : h.generation = g.generation := BitVec.eq_of_toNat_eq (Nat.le_antisymm (bound _ h validD bootD) atMost)
      have slot : d.slot = b.slot := distinct _ _ h g validD valid same
      obtain ⟨bSlot, bGeneration⟩ := b
      obtain ⟨dSlot, dGeneration⟩ := d
      rw [Option.some.injEq, BootRecord.mk.injEq]
      exact ⟨slot, generationD.trans (same.trans generation.symm)⟩

/-! ## The load -/

theorem exec_powerUpLoad (straps : BitVec 2) (s : State) :
    exec (.powerUpLoad straps) s = .next (if s.lifecycle = .inReset then beginLoad straps s else s) := rfl

@[simp] theorem beginLoad_slot (straps : BitVec 2) (s : State) (i : SlotNo) :
    (beginLoad straps s).slot i = judgeSlot s.store.slots i := judgeSlots_look s.store.slots i

/-- Settles O12: the tests of wholeness, what each slot holds, and the load's judgement slot by slot. -/
theorem powerUpLoadJudgesAndSelects : Obligations.PowerUpLoadJudgesAndSelects := by
  refine ⟨fun c g => ?whole, fun g => ?wellMade, fun x => ?contents, fun s straps => ⟨fun later => ?later,
    fun reset => ⟨beginLoad straps s, ?_, rfl, fun i absent => ?empty, fun i c contents bad => ?bad,
      fun i c g contents whole twin => ?twin, fun i c g contents whole first => ?valid, fun b => ?boot⟩⟩⟩
  case whole => rw [whole_some_iff, wellMade_iff]
  case wellMade => simp only [whole_some_iff, true_and]
  case contents => cases x <;> rfl
  case later => rw [exec_powerUpLoad, if_neg later]
  · rw [exec_powerUpLoad, if_pos reset]
  case empty => exact (beginLoad_slot straps s i).trans (judgeSlot_empty absent)
  case bad => exact (beginLoad_slot straps s i).trans (judgeSlot_bad contents bad)
  case twin =>
    obtain ⟨j, d, h, lower, contentsJ, wholeJ, same⟩ := twin
    exact (beginLoad_slot straps s i).trans
      (judgeSlot_twin contents whole ⟨j, h, lower, ⟨d, contentsJ, wholeJ⟩, same⟩)
  case valid =>
    refine (beginLoad_slot straps s i).trans (judgeSlot_valid contents whole ?_)
    rintro ⟨j, h, lower, ⟨d, contentsJ, wholeJ⟩, same⟩
    exact first ⟨j, d, h, lower, contentsJ, wholeJ, same⟩
  case boot =>
    refine bootCandidate_iff (slots := judgeSlots s.store.slots) fun i j g h validI validJ same => ?_
    rw [judgeSlots_look] at validI validJ
    exact judgeSlot_distinct validI validJ same

end Sys2Proof.Machine
end

section
/-! PROOFS. STORE-SLOT (R104, R105): the checks in their order, the snapshot, and the statement put together from them. -/

namespace Sys2Proof.Machine

variable {s : State} {p : Port} {payload : List Byte} {i : SlotNo}

/-! ## The parameters -/

theorem storeSlot_slotBad (slot : 3 < u8 payload 0) :
    firstBad [u8 payload 0 < 4, (boolOfCode (u8 payload 1)).isSome] = some 0 := by
  refine firstBad_some ?_ fun j lower => absurd lower (Nat.not_lt_zero j)
  simp only [List.getElem?_cons_zero, Option.some.injEq, decide_eq_false_iff_not]
  omega

theorem storeSlot_bootBad (slot : u8 payload 0 ≤ 3) (boot : 1 < u8 payload 1) :
    firstBad [u8 payload 0 < 4, (boolOfCode (u8 payload 1)).isSome] = some 1 := by
  refine firstBad_some ?_ fun j lower => ?_
  · rw [boolOfCode_none boot]
    rfl
  · obtain rfl : j = 0 := by omega
    simp only [List.getElem?_cons_zero, Option.some.injEq, decide_eq_true_eq]
    omega

theorem storeSlot_inRange (slot : i.val = u8 payload 0) (boot : u8 payload 1 ≤ 1) :
    firstBad [u8 payload 0 < 4, (boolOfCode (u8 payload 1)).isSome] = none := by
  refine firstBad_none fun j inside => ?_
  match j, inside with
  | 0, _ => simp [← slot]
  | 1, _ => simp [boolOfCode_isSome, boot]

/-! ## The cases of the request -/

theorem reqStoreSlot_slotBad (slot : 3 < u8 payload 0) : reqStoreSlot p payload s = refuseRange s 0 := by
  rw [reqStoreSlot, storeSlot_slotBad slot]

theorem reqStoreSlot_bootBad (slot : u8 payload 0 ≤ 3) (boot : 1 < u8 payload 1) :
    reqStoreSlot p payload s = refuseRange s 1 := by
  rw [reqStoreSlot, storeSlot_bootBad slot boot]

theorem reqStoreSlot_notOwner (slot : i.val = u8 payload 0) (boot : u8 payload 1 ≤ 1) (other : s.counter.claim ≠ some p) :
    reqStoreSlot p payload s = refuse s .notOwner (portWord s.counter.claim) := by
  simp only [reqStoreSlot, storeSlot_inRange slot boot, slotOfCode_some slot, if_pos other, refuseNoClaim]

theorem reqStoreSlot_busy {o : StoreOp} (slot : i.val = u8 payload 0) (boot : u8 payload 1 ≤ 1)
    (claim : s.counter.claim = some p) (busy : s.store.op = some o) :
    reqStoreSlot p payload s = refuse s .storeBusy (BitVec.ofNat 16 o.slot.val) := by
  simp only [reqStoreSlot, storeSlot_inRange slot boot, slotOfCode_some slot, claim, ne_eq, not_true_eq_false, if_false,
    busy, refuseBusy]

theorem reqStoreSlot_exhausted {j : SlotNo} (slot : i.val = u8 payload 0) (boot : u8 payload 1 ≤ 1)
    (claim : s.counter.claim = some p) (idle : s.store.op = none) (last : exhausted s.store.slots = some j) :
    reqStoreSlot p payload s = refuse s .slotState (BitVec.ofNat 16 j.val) := by
  simp only [reqStoreSlot, storeSlot_inRange slot boot, slotOfCode_some slot, claim, ne_eq, not_true_eq_false, if_false,
    idle, last]

/-- R105. -/
theorem reqStoreSlot_admitted (slot : i.val = u8 payload 0) (boot : u8 payload 1 ≤ 1)
    (claim : s.counter.claim = some p) (idle : s.store.op = none) (room : exhausted s.store.slots = none) :
    reqStoreSlot p payload s =
      replyPending (startStore s i (.writing (snapshot s (u8 payload 1 = 1))) .store p)
        ((nextGeneration s.store.slots).setWidth 16) := by
  simp only [reqStoreSlot, storeSlot_inRange slot boot, slotOfCode_some slot, claim, ne_eq, not_true_eq_false, if_false,
    idle, room, boolOfCode_getD boot]
  rfl

/-- Settles O51: each clause is one case of the request; the generation given is `nextGeneration`. -/
theorem storeSlotTakesItsSnapshot : Obligations.StoreSlotTakesItsSnapshot := by
  intro s p seq payload accepted
  refine ⟨fun slot => ?slotBad, fun slot boot => ?bootBad, fun i slot boot => ⟨fun other => ?notOwner, fun claim =>
    ⟨fun o busy => ?busy, fun idle => ⟨fun j g valid last lowest => ?exhausted, fun room =>
      ⟨nextGeneration s.store.slots, fun j g valid => ?above, fun absent => ?first, fun present => ?succ, ?admitted⟩⟩⟩⟩⟩
  case slotBad => exact refuses_of accepted (reqStoreSlot_slotBad slot) rfl
  case bootBad => exact refuses_of accepted (reqStoreSlot_bootBad slot boot) rfl
  case notOwner => exact refuses_of accepted (reqStoreSlot_notOwner slot boot other) rfl
  case busy => exact refuses_of accepted (reqStoreSlot_busy slot boot claim busy) rfl
  case exhausted =>
    exact refuses_of accepted (reqStoreSlot_exhausted slot boot claim idle (exhausted_some valid last lowest)) rfl
  case above => exact lt_nextGeneration room valid
  case first => exact nextGeneration_first absent
  case succ =>
    obtain ⟨j, g, valid, succ, -⟩ := nextGeneration_succ room present
    exact ⟨j, g, valid, succ⟩
  case admitted => exact completes_of accepted (reqStoreSlot_admitted slot boot claim idle (exhausted_none room)) rfl

end Sys2Proof.Machine
end

section
/-! PROOFS. ERASE-SLOT and READ-SLOT (R108, R112): the cases of each request, and the statement put together from them. -/

namespace Sys2Proof.Machine

variable {s : State} {p : Port} {payload : List Byte} {i : SlotNo}

/-! ## ERASE-SLOT -/

theorem reqEraseSlot_outOfRange (slot : 3 < u8 payload 0) : reqEraseSlot p payload s = refuseRange s 0 := by
  rw [reqEraseSlot, slotOfCode_none slot]

theorem reqEraseSlot_notOwner (slot : i.val = u8 payload 0) (other : s.counter.claim ≠ some p) :
    reqEraseSlot p payload s = refuse s .notOwner (portWord s.counter.claim) := by
  simp only [reqEraseSlot, slotOfCode_some slot, if_pos other, refuseNoClaim]

theorem reqEraseSlot_busy {o : StoreOp} (slot : i.val = u8 payload 0) (claim : s.counter.claim = some p)
    (busy : s.store.op = some o) : reqEraseSlot p payload s = refuse s .storeBusy (BitVec.ofNat 16 o.slot.val) := by
  simp only [reqEraseSlot, slotOfCode_some slot, claim, ne_eq, not_true_eq_false, if_false, busy, refuseBusy]

theorem reqEraseSlot_admitted (slot : i.val = u8 payload 0) (claim : s.counter.claim = some p) (idle : s.store.op = none) :
    reqEraseSlot p payload s = replyPending (startStore s i .erasing .erase p) := by
  simp only [reqEraseSlot, slotOfCode_some slot, claim, ne_eq, not_true_eq_false, if_false, idle]

/-! ## READ-SLOT -/

theorem reqReadSlot_outOfRange (slot : 3 < u8 payload 0) : reqReadSlot p payload s = refuseRange s 0 := by
  rw [reqReadSlot, slotOfCode_none slot]

theorem reqReadSlot_inRange (slot : i.val = u8 payload 0) :
    reqReadSlot p payload s = replyOk s 0 ([byteOf i.val, (s.slot i).code] ++ slotPart (s.slot i)) := by
  simp only [reqReadSlot, slotOfCode_some slot, slotPayload]
  rfl

/-- R112: VALID and WRITING report their image. -/
theorem slotPart_image {x : Slot} {g : Image} (held : x = .valid g ∨ x = .writing g) :
    slotPart x =
      be32 g.generation ++ [if g.boot then 1 else 0] ++ be16 g.tag ++ be32Nat g.modulus ++ [byteOf (totalOf g.lists)] := by
  obtain rfl | rfl := held <;> rfl

/-- R112: the other states report zeros. -/
theorem slotPart_zeros {x : Slot} (noImage : ∀ g, x ≠ .valid g ∧ x ≠ .writing g) :
    slotPart x = [0, 0, 0, 0, 0, 0, 0, 0, 0, 0, 0, 0] := by
  cases x with
  | valid g => exact absurd rfl (noImage g).1
  | writing g => exact absurd rfl (noImage g).2
  | empty | damaged _ | erasing => rfl

theorem reqReadSlot_image {g : Image} (slot : i.val = u8 payload 0) (held : s.slot i = .valid g ∨ s.slot i = .writing g) :
    reqReadSlot p payload s =
      replyOk s 0
        ([byteOf i.val, (s.slot i).code] ++ be32 g.generation ++ [if g.boot then 1 else 0] ++ be16 g.tag ++
          be32Nat g.modulus ++ [byteOf (totalOf g.lists)]) := by
  rw [reqReadSlot_inRange slot, slotPart_image held]
  simp only [List.append_assoc]

theorem reqReadSlot_zeros (slot : i.val = u8 payload 0) (noImage : ∀ g, s.slot i ≠ .valid g ∧ s.slot i ≠ .writing g) :
    reqReadSlot p payload s =
      replyOk s 0 ([byteOf i.val, (s.slot i).code] ++ [0, 0, 0, 0, 0, 0, 0, 0, 0, 0, 0, 0]) := by
  rw [reqReadSlot_inRange slot, slotPart_zeros noImage]

/-- Settles O52: each clause is one case of its request, READ-SLOT's by what the slot's state reports. -/
theorem eraseSlotAndReadSlot : Obligations.EraseSlotAndReadSlot := by
  refine ⟨fun s p seq payload accepted => ⟨fun slot => ?eraseRange, fun i slot => ⟨fun other => ?notOwner, fun claim =>
      ⟨fun o busy => ?busy, fun idle => ?erase⟩⟩⟩,
    fun s p seq payload accepted => ⟨fun slot => ?readRange, fun i slot => ⟨fun g held => ?image, fun noImage => ?zeros⟩⟩⟩
  case eraseRange => exact refuses_of accepted (reqEraseSlot_outOfRange slot) rfl
  case notOwner => exact refuses_of accepted (reqEraseSlot_notOwner slot other) rfl
  case busy => exact refuses_of accepted (reqEraseSlot_busy slot claim busy) rfl
  case erase => exact completes_of accepted (reqEraseSlot_admitted slot claim idle) rfl
  case readRange => exact refuses_of accepted (reqReadSlot_outOfRange (p := p) slot) rfl
  case image => exact completes_of accepted (reqReadSlot_image (p := p) slot held) rfl
  case zeros => exact completes_of accepted (reqReadSlot_zeros (p := p) slot noImage) rfl

end Sys2Proof.Machine
end

section
/-! PROOFS. LOAD-SLOT (R110, R111): the checks in their order, and the statement put together from them. -/

namespace Sys2Proof.Machine

variable {s : State} {p : Port} {payload : List Byte} {i : SlotNo} {e : EditSession} {g : Image}

/-! ## The cases of the request -/

theorem reqLoadSlot_outOfRange (slot : 3 < u8 payload 0) : reqLoadSlot p payload s = refuseRange s 0 := by
  rw [reqLoadSlot, slotOfCode_none slot]

theorem reqLoadSlot_noSession (slot : i.val = u8 payload 0) (absent : s.sessionOf p = none) :
    reqLoadSlot p payload s = refuseNoSession s := by
  simp only [reqLoadSlot, slotOfCode_some slot, absent]

theorem reqLoadSlot_pending (slot : i.val = u8 payload 0) (holds : s.sessionOf p = some e) (pending : e.pending ≠ none) :
    reqLoadSlot p payload s = refuse s .state 1 := by
  simp only [reqLoadSlot, slotOfCode_some slot, holds, isPending_of_ne_none pending, if_true]

theorem reqLoadSlot_busy {o : StoreOp} (slot : i.val = u8 payload 0) (holds : s.sessionOf p = some e)
    (editing : e.pending = none) (busy : s.store.op = some o) :
    reqLoadSlot p payload s = refuse s .storeBusy (BitVec.ofNat 16 o.slot.val) := by
  simp only [reqLoadSlot, slotOfCode_some slot, holds, isPending_of_none editing, Bool.false_eq_true, if_false, busy,
    refuseBusy]

theorem validImage_none {x : Slot} (notValid : ∀ g, x ≠ .valid g) : x.validImage = none :=
  Option.eq_none_iff_forall_ne_some.2 fun g found => notValid g (validImage_some.1 found)

theorem reqLoadSlot_notValid (slot : i.val = u8 payload 0) (holds : s.sessionOf p = some e) (editing : e.pending = none)
    (idle : s.store.op = none) (notValid : ∀ g, s.slot i ≠ .valid g) :
    reqLoadSlot p payload s = refuse s .slotState ((s.slot i).code.setWidth 16) := by
  simp only [reqLoadSlot, slotOfCode_some slot, holds, isPending_of_none editing, Bool.false_eq_true, if_false, idle,
    validImage_none notValid]

theorem reqLoadSlot_mismatch (slot : i.val = u8 payload 0) (holds : s.sessionOf p = some e) (editing : e.pending = none)
    (idle : s.store.op = none) (valid : s.slot i = .valid g) (other : g.modulus ≠ s.counter.modulus) :
    reqLoadSlot p payload s = refuse s .mismatch 0 := by
  simp only [reqLoadSlot, slotOfCode_some slot, holds, isPending_of_none editing, Bool.false_eq_true, if_false, idle,
    validImage_some.2 valid, if_pos other]

/-- R111. -/
theorem reqLoadSlot_admitted (slot : i.val = u8 payload 0) (holds : s.sessionOf p = some e) (editing : e.pending = none)
    (idle : s.store.op = none) (valid : s.slot i = .valid g) (same : g.modulus = s.counter.modulus) :
    reqLoadSlot p payload s =
      replyOk { s with session := some { e with shadow := { lists := g.lists, tag := g.tag } } }
        (BitVec.ofNat 16 (totalOf g.lists)) := by
  simp only [reqLoadSlot, slotOfCode_some slot, holds, isPending_of_none editing, Bool.false_eq_true, if_false, idle,
    validImage_some.2 valid, same, ne_eq, not_true_eq_false]
  rfl

/-- Settles O53: each clause is one case of the request, in the order of its checks. -/
theorem loadSlotFillsTheShadow : Obligations.LoadSlotFillsTheShadow := by
  intro s p seq payload accepted
  refine ⟨fun slot => ?range, fun i slot => ?inRange⟩
  case range => exact refuses_of accepted (reqLoadSlot_outOfRange slot) rfl
  case inRange =>
    obtain ⟨noSession, otherHolder⟩ := refuses_noSession accepted fun absent => reqLoadSlot_noSession slot absent
    refine ⟨noSession, otherHolder, fun e session holder => ?_⟩
    have holds : (heard p s).sessionOf p = some e := sessionOf_holder session holder
    refine ⟨fun pending => ?pending, fun editing => ⟨fun o busy => ?busy, fun idle => ⟨fun notValid => ?notValid,
      fun g valid other => ?mismatch, fun g valid same => ?admitted⟩⟩⟩
    case pending => exact refuses_of accepted (reqLoadSlot_pending slot holds pending) rfl
    case busy => exact refuses_of accepted (reqLoadSlot_busy slot holds editing busy) rfl
    case notValid => exact refuses_of accepted (reqLoadSlot_notValid slot holds editing idle notValid) rfl
    case mismatch => exact refuses_of accepted (reqLoadSlot_mismatch slot holds editing idle valid other) rfl
    case admitted => exact completes_of accepted (reqLoadSlot_admitted slot holds editing idle valid same) rfl

end Sys2Proof.Machine
end

section
/-! PROOFS. The store's law (R102): what one slot written into the table and the record together keep of it, the operations that
write either, and the invariant of every step put together from them. -/

namespace Sys2Proof.Machine

variable {s t : State} {i : SlotNo} {x : Slot} {g : Image}

/-! ## What the law is read from -/

theorem storeLaw_congr (same : t.store = s.store) (law : storeLaw s) : storeLaw t := by
  simpa only [storeLaw, State.slot, same] using law

/-- R107: what is left of the record when port `p` is no longer its requester. -/
def StoreOp.forget (p : Port) (o : StoreOp) : StoreOp := if o.requester = some p then { o with requester := none } else o

theorem StoreOp.forget_kind_slot (p : Port) (o : StoreOp) : (o.forget p).kind = o.kind ∧ (o.forget p).slot = o.slot := by
  unfold StoreOp.forget
  split
  · exact ⟨rfl, rfl⟩
  · exact ⟨rfl, rfl⟩

/-- The law does not ask who the requester is. -/
theorem storeLaw_forget (p : Port) (same : t.store = { s.store with op := s.store.op.map (StoreOp.forget p) })
    (law : storeLaw s) : storeLaw t := by
  have slot (j : SlotNo) : t.slot j = s.slot j := by rw [State.slot, State.slot, same]
  have op : t.store.op = s.store.op.map (StoreOp.forget p) := by rw [same]
  obtain ⟨distinct, fresh, idle, busy⟩ := law
  refine ⟨by simpa only [slot] using distinct, by simpa only [slot] using fresh, fun absent j => ?_, fun o present => ?_⟩
  · rw [slot]
    exact idle (Option.map_eq_none_iff.1 (op.symm.trans absent)) j
  · obtain ⟨before, busyBefore, rfl⟩ := Option.map_eq_some_iff.1 (op.symm.trans present)
    obtain ⟨kind, named⟩ := before.forget_kind_slot p
    simpa only [slot, kind, named] using busy before busyBefore

/-! ## One slot written -/

/-- No slot other than `i` is in WRITING or ERASING. -/
def OthersAtRest (s : State) (i : SlotNo) : Prop := ∀ j, j ≠ i → (s.slot j).inFlight = false

/-- The image that the slot holds, or takes, has a generation that no other VALID slot has. -/
def FreshAt (s : State) (i : SlotNo) (x : Slot) : Prop :=
  ∀ g, x = .valid g ∨ x = .writing g → ∀ j h, j ≠ i → s.slot j = .valid h → h.generation ≠ g.generation

/-- The record that goes with slot `i` in state `x`: it names the slot by its kind, or there is none and the slot is at rest. -/
def RecordFits (i : SlotNo) (x : Slot) : Option StoreOp → Prop
  | none => x.inFlight = false
  | some o => o.slot = i ∧ x.matchesKind o.kind = true

theorem othersAtRest_idle (law : storeLaw s) (idle : s.store.op = none) (i : SlotNo) : OthersAtRest s i := by
  obtain ⟨-, -, atRest, -⟩ := law
  exact fun j _ => atRest idle j

theorem othersAtRest_busy {o : StoreOp} (law : storeLaw s) (busy : s.store.op = some o) : OthersAtRest s o.slot := by
  obtain ⟨-, -, -, named⟩ := law
  exact (named o busy).2

/-- R102, R105, R106, R108, R109: slot and record written together keep the law. -/
theorem storeLaw_put {op : Option StoreOp} (law : storeLaw s) (others : OthersAtRest s i) (fresh : FreshAt s i x)
    (fits : RecordFits i x op) : storeLaw (s.setStore { s.store with slots := s.store.slots.put i x, op := op }) := by
  have slot (j : SlotNo) : (s.setStore { s.store with slots := s.store.slots.put i x, op := op }).slot j =
      if j = i then x else s.slot j := Table.look_put _ _ _ _
  obtain ⟨distinct, -, -, -⟩ := law
  refine ⟨fun j k g h validJ validK same => ?distinct, fun j k g h writing valid => ?fresh, fun idle j => ?idle,
    fun o busy => ?busy⟩
  case distinct =>
    rw [slot] at validJ validK
    split at validJ <;> split at validK
    · next atJ atK => exact atJ.trans atK.symm
    · next _ atK => exact absurd same.symm (fresh g (.inl validJ) k h atK validK)
    · next atJ _ => exact absurd same (fresh h (.inl validK) j g atJ validJ)
    · exact distinct j k g h validJ validK same
  case fresh =>
    rw [slot] at writing valid
    split at writing
    · split at valid
      · cases writing.symm.trans valid
      · next _ atK => exact (fresh g (.inr writing) k h atK valid).symm
    · next atJ =>
      have atRest := others j atJ
      rw [writing] at atRest
      cases atRest
  case idle =>
    obtain rfl : op = none := idle
    rw [slot]
    split
    · exact fits
    · next atJ => exact others j atJ
  case busy =>
    obtain rfl : op = some o := busy
    obtain ⟨rfl, kind⟩ := fits
    refine ⟨by rwa [slot, if_pos rfl], fun j atJ => ?_⟩
    rw [slot, if_neg atJ]
    exact others j atJ

/-! ## Requests -/

/-- R104, R105: STORE-SLOT leaves the part, or writes the snapshot under a new generation into a slot of the idle store. -/
theorem reqStoreSlot_cases (p : Port) (payload : List Byte) (s : State) :
    (reqStoreSlot p payload s).state = s ∨
    ∃ i boot, s.store.op = none ∧ Unexhausted s.store.slots ∧
      (reqStoreSlot p payload s).state = startStore s i (.writing (snapshot s boot)) .store p := by
  simp only [reqStoreSlot]
  (repeat' split) <;> try exact .inl rfl
  next idle _ room => exact .inr ⟨_, _, idle, unexhausted_of_exhausted_none room, rfl⟩

theorem reqEraseSlot_cases (p : Port) (payload : List Byte) (s : State) :
    (reqEraseSlot p payload s).state = s ∨
    ∃ i, s.store.op = none ∧ (reqEraseSlot p payload s).state = startStore s i .erasing .erase p := by
  simp only [reqEraseSlot]
  (repeat' split) <;> try exact .inl rfl
  next idle => exact .inr ⟨_, idle, rfl⟩

theorem storeLaw_storeSlot (p : Port) (payload : List Byte) (law : storeLaw s) :
    storeLaw (reqStoreSlot p payload s).state := by
  obtain same | ⟨i, boot, idle, room, started⟩ := reqStoreSlot_cases p payload s
  · exact same.symm ▸ law
  · rw [started]
    refine storeLaw_put law (othersAtRest_idle law idle i) ?_ ⟨rfl, rfl⟩
    rintro g (valid | writing) j h - validJ
    · cases valid
    · cases writing
      exact fun same => absurd (congrArg BitVec.toNat same) (Nat.ne_of_lt (lt_nextGeneration room validJ))

theorem storeLaw_eraseSlot (p : Port) (payload : List Byte) (law : storeLaw s) :
    storeLaw (reqEraseSlot p payload s).state := by
  obtain same | ⟨i, idle, started⟩ := reqEraseSlot_cases p payload s
  · exact same.symm ▸ law
  · rw [started]
    refine storeLaw_put law (othersAtRest_idle law idle i) ?_ ⟨rfl, rfl⟩
    rintro g (valid | writing)
    · cases valid
    · cases writing

/-- The requests that write the store. -/
def Request.writesStore : Request → Bool
  | .storeSlot | .eraseSlot => true
  | _ => false

theorem handle_store {r : Request} (reads : r.writesStore = false) (p : Port) (payload : List Byte) (s : State) :
    (handle r p payload s).state.store = s.store := by
  cases r <;> simp only [handle]
  case storeSlot | eraseSlot => exact absurd reads (by decide)
  case identify | readAxis | readTracks => rfl
  case openPort => unfold reqOpen; split <;> rfl
  case closePort => unfold reqClose; split <;> rfl
  case readStatus => unfold reqReadStatus; simp only []; (repeat' split) <;> rfl
  case clearFault => unfold reqClearFault; (repeat' split) <;> rfl
  case restart => unfold reqRestart; (repeat' split) <;> rfl
  case claimAxis => unfold reqClaimAxis; (repeat' split) <;> rfl
  case releaseAxis => unfold reqReleaseAxis withdrawPreset; (repeat' split) <;> rfl
  case preset => unfold reqPreset; (repeat' split) <;> simp [refuseRange, refuse, refuseNoClaim, replyOk, replyPending]
  case cancelPreset => unfold reqCancelPreset withdrawPreset; (repeat' split) <;> rfl
  case setAxis => unfold reqSetAxis; (repeat' split) <;> simp [refuseRange, refuse, refuseNoClaim, replyOk]
  case clearAxisFault => unfold reqClearAxisFault; (repeat' split) <;> rfl
  case claimTracks => simp only [reqClaimTracks]; (repeat' split) <;> simp [refuseRange, refuse, replyOk]
  case releaseTracks => simp only [reqReleaseTracks]; (repeat' split) <;> simp [refuseRange, refuse, replyOk]
  case setTrack => unfold reqSetTrack; (repeat' split) <;> simp [refuseRange, refuse, replyOk]
  case openEdit => unfold reqOpenEdit; simp only []; (repeat' split) <;> rfl
  case writeWindows => unfold reqWriteWindows; simp only []; (repeat' split) <;> rfl
  case readWindows => unfold reqReadWindows; (repeat' split) <;> rfl
  case commit =>
    simp only [reqCommit]
    (repeat' split) <;> simp [refuseRange, refuse, refuseNoSession, replyOk, replyPending]
  case abortEdit => unfold reqAbortEdit withdrawCommit endSession; (repeat' split) <;> rfl
  case loadSlot => unfold reqLoadSlot; simp only []; (repeat' split) <;> rfl
  case readSlot => unfold reqReadSlot; split <;> rfl
  case subscribe => unfold reqSubscribe; split <;> rfl
  case fetchEvents => unfold reqFetchEvents; simp only []; split <;> rfl

theorem storeLaw_handle (r : Request) (p : Port) (payload : List Byte) (law : storeLaw s) :
    storeLaw (handle r p payload s).state := by
  by_cases reads : r.writesStore = false
  · exact storeLaw_congr (handle_store reads p payload s) law
  · cases r <;> simp only [Request.writesStore, not_true_eq_false] at reads
    case storeSlot => exact storeLaw_storeSlot p payload law
    case eraseSlot => exact storeLaw_eraseSlot p payload law

/-! ## Completions, resets and the load -/

/-- An operation that ends leaves its slot with an image only where that of the slot in WRITING was fresh. -/
theorem storeLaw_endStore {u : State} {o : StoreOp} (law : storeLaw s) (same : u.store = s.store)
    (busy : s.store.op = some o) (atRest : x.inFlight = false) (wrote : ∀ g, x = .valid g → s.slot o.slot = .writing g) :
    storeLaw (endStore u o.slot x) := by
  have slot (j : SlotNo) : u.slot j = s.slot j := by rw [State.slot, State.slot, same]
  refine storeLaw_put (storeLaw_congr same law) (fun j other => ?_) ?_ atRest
  · rw [slot]
    exact othersAtRest_busy law busy j other
  · obtain ⟨-, fresh, -, -⟩ := law
    rintro g (valid | writing) j h - validJ
    · rw [slot] at validJ
      exact (fresh o.slot j g h (wrote g valid) validJ).symm
    · rw [writing] at atRest
      cases atRest

/-- R102: the slot of a store in flight is in WRITING. -/
theorem writing_of_busy {o : StoreOp} (law : storeLaw s) (busy : s.store.op = some o) (kind : o.kind = .store) :
    ∃ g, s.slot o.slot = .writing g := by
  obtain ⟨-, -, -, named⟩ := law
  obtain ⟨fits, -⟩ := named o busy
  rw [kind] at fits
  revert fits
  cases s.slot o.slot with
  | writing g => exact fun _ => ⟨g, rfl⟩
  | empty | valid _ | damaged _ | erasing => exact fun fits => absurd fits Bool.false_ne_true

theorem storeLaw_completeStore (cellsHold : Bool) (law : storeLaw s) : storeLaw (completeStore cellsHold s) := by
  match op : s.store.op with
  | none => rwa [completeStore_idle cellsHold op]
  | some { kind := .erase, slot := i, requester := r } => rwa [completeStore_other cellsHold (by simp [op])]
  | some { kind := .store, slot := i, requester := r } =>
    obtain ⟨g, writing⟩ := writing_of_busy law op rfl
    cases whole : (Contents.image g cellsHold).whole with
    | some h =>
      obtain ⟨rfl, -⟩ := whole_image_some.1 whole
      rw [completeStore_valid op writing whole]
      exact storeLaw_endStore law rfl op rfl fun h valid => by cases valid; exact writing
    | none =>
      rw [completeStore_damaged op writing whole]
      exact storeLaw_endStore law rfl op rfl fun h valid => by cases valid

theorem storeLaw_completeErase (law : storeLaw s) : storeLaw (completeErase s) := by
  match op : s.store.op with
  | none => rwa [completeErase_idle op]
  | some { kind := .store, slot := i, requester := r } => rwa [completeErase_other (by simp [op])]
  | some { kind := .erase, slot := i, requester := r } =>
    rw [completeErase_empty op]
    exact storeLaw_endStore law rfl op rfl fun h valid => by cases valid

/-- An idle store whose VALID slots carry different generations. -/
theorem storeLaw_of_idle (idle : s.store.op = none) (atRest : ∀ i, (s.slot i).inFlight = false)
    (distinct : ∀ i j g h, s.slot i = .valid g → s.slot j = .valid h → g.generation = h.generation → i = j) :
    storeLaw s := by
  refine ⟨distinct, fun i j g h writing _ => ?_, fun _ => atRest, fun o busy => ?_⟩
  · have flying := atRest i
    rw [writing] at flying
    cases flying
  · cases idle.symm.trans busy

theorem interrupted_valid : x.interrupted = .valid g ↔ x = .valid g := by
  cases x <;> simp [Slot.interrupted]

theorem interrupted_inFlight (x : Slot) : x.interrupted.inFlight = false := by cases x <;> rfl

theorem deviceReset_slot (s : State) (i : SlotNo) : (deviceReset s).slot i = (s.slot i).interrupted :=
  Table.look_build _ _

theorem storeLaw_deviceReset (law : storeLaw s) : storeLaw (deviceReset s) := by
  obtain ⟨distinct, -, -, -⟩ := law
  refine storeLaw_of_idle rfl (fun i => ?_) fun i j g h validI validJ => ?_
  · rw [deviceReset_slot]
    exact interrupted_inFlight _
  · rw [deviceReset_slot, interrupted_valid] at validI validJ
    exact distinct i j g h validI validJ

/-- R114: the load judges every slot anew, and before service no operation is in flight. -/
theorem storeLaw_beginLoad (straps : BitVec 2) (idle : s.store.op = none) : storeLaw (beginLoad straps s) := by
  refine storeLaw_of_idle idle (fun i => ?_) fun i j g h validI validJ => ?_
  · rw [beginLoad_slot]
    exact judgeSlot_inFlight _ i
  · rw [beginLoad_slot] at validI validJ
    exact judgeSlot_distinct validI validJ

theorem endLoad_store (s : State) : (endLoad s).store = s.store := by
  unfold endLoad
  cases bootImage s <;> simp [applyImage]

/-- R107: a port reset only takes the port out of the record. -/
theorem portReset_store (p : Port) (c : ResetCause) (s : State) :
    (portReset p c s).store = { s.store with op := s.store.op.map (StoreOp.forget p) } := by
  rw [portReset_eq]
  rfl

theorem changeOe_store (level : Bool) (s : State) : (changeOe level s).store = s.store := by
  unfold changeOe
  (repeat' split) <;> simp

/-! ## The law is kept by every operation -/

theorem storeLaw_kept : Kept fun s => bootLaw s ∧ storeLaw s where
  port s p x state cause := .imp (bootLaw_kept.port s p x state cause) (storeLaw_congr rfl)
  request r p payload s running admits length :=
    .imp (bootLaw_kept.request r p payload s running admits length) (storeLaw_handle r p payload)
  reset p c s opened := .imp (bootLaw_kept.reset p c s opened) (storeLaw_forget p (portReset_store p c s))
  close s p notOpen := .imp (bootLaw_kept.close s p notOpen) (storeLaw_congr rfl)
  device s := .imp (bootLaw_kept.device s) storeLaw_deviceReset
  load straps s reset := fun ⟨boot, _⟩ => by
    obtain ⟨-, -, -, -, -, -, -, idle, -⟩ := boot (by simp [State.inService, reset])
    exact ⟨bootLaw_kept.load straps s reset boot, storeLaw_beginLoad straps idle⟩
  loaded s loading := .imp (bootLaw_kept.loaded s loading) (storeLaw_congr (endLoad_store s))
  count a b s service := .imp (bootLaw_kept.count a b s service) (storeLaw_congr (sampleCount_store s a b))
  index i s service := .imp (bootLaw_kept.index i s service) (storeLaw_congr (sampleIndex_store s i))
  fail l s := .imp (bootLaw_kept.fail l s) (storeLaw_congr (receiversFail_store s l))
  heal l s := .imp (bootLaw_kept.heal l s) (storeLaw_congr rfl)
  restore s due := .imp (bootLaw_kept.restore s due) (storeLaw_congr rfl)
  period s due := .imp (bootLaw_kept.period s due) (storeLaw_congr (closeSamplePeriod_store s))
  deadline s due := .imp (bootLaw_kept.deadline s due) (storeLaw_congr (withdrawCommit_store s 0))
  stored b s := .imp (bootLaw_kept.stored b s) (storeLaw_completeStore b)
  erased s := .imp (bootLaw_kept.erased s) storeLaw_completeErase
  outputs l s := .imp (bootLaw_kept.outputs l s) (storeLaw_congr (changeOe_store l s))

/-- Settles O59: the law survives every shared operation, by what each writes of slots and record. -/
theorem everyStepKeepsTheStore : Obligations.EveryStepKeepsTheStore := by
  intro s t laws stepped
  refine storeLaw_kept.step (fun s l => .imp ?bootQueue ?queue) (fun s x _ => .imp ?bootTime ?time) laws stepped
  case bootQueue | bootTime => exact bootLaw_congr rfl
  case queue | time => exact storeLaw_congr rfl

end Sys2Proof.Machine
end

section
/-! PROOFS. Characters, silence and character faults by the receiver's phase (R117, R137 to R142, R155). -/

namespace Sys2Proof.Machine

variable {s : State} {p : Port}

/-! ## One character -/

theorem portsReceive_iff (s : State) : s.portsReceive = true ↔ s.lifecycle = .running := by
  simp [State.portsReceive]

theorem receiveChars_one (p : Port) (b : Byte) (s : State) : receiveChars p [b] s = receiveChar p s b := by
  simp [receiveChars_eq]

/-- R139: HUNTING discards what is no delimiter. -/
theorem receiveChar_discarded {b : Byte} (hears : s.portsReceive = true) (phase : (s.port p).phase = .hunting)
    (noDelimiter : b ≠ 0xD1) : receiveChar p s b = s.lineHigh p := by
  simp only [receiveChar, hears, if_true, phase, charHunting, if_neg noDelimiter]

/-- R139: the delimiter begins a frame where the transmitter is IDLE. -/
theorem receiveChar_begins (hears : s.portsReceive = true) (phase : (s.port p).phase = .hunting)
    (idle : (s.port p).tx = none) : receiveChar p s 0xD1 = inFrame p [] s := by
  simp [receiveChar, hears, phase, charHunting, idle, State.lineHigh, State.setPhase, inFrame]

/-- R139: RECEIVING keeps the characters of a frame that is not yet whole. -/
theorem receiveChar_kept {kept : List Byte} {b : Byte} (hears : s.portsReceive = true)
    (phase : (s.port p).phase = .receiving kept) (more : progress (kept ++ [b]) = .more) :
    receiveChar p s b = inFrame p (kept ++ [b]) s := by
  simp only [receiveChar, hears, if_true, phase, charReceiving, more, State.lineHigh, State.setPhase, inFrame,
    port_setPort_same, setPort_setPort]

/-- R142: SKIPPING drops the characters of an overrun frame that has not yet ended. -/
theorem receiveChar_dropped {taken : List Byte} {b : Byte} (hears : s.portsReceive = true)
    (phase : (s.port p).phase = .skipping taken) (more : progress (taken ++ [b]) = .more) :
    receiveChar p s b = s.setPort p { s.port p with line := .high, phase := .skipping (taken ++ [b]) } := by
  simp only [receiveChar, hears, if_true, phase, charSkipping, more, State.lineHigh, State.setPhase, port_setPort_same,
    setPort_setPort]

/-- R145: the count in the words of the statements. -/
theorem satInc_eq (w : Word16) : satInc w = if w = 0xFFFF then 0xFFFF else w + 1 := by
  unfold satInc
  split
  · next full => exact full
  · rfl

/-! ## A silence over the gap limit (R140) -/

theorem silence_deaf (deaf : s.portsReceive = false) : silence p s = s := by
  simp only [silence, deaf, Bool.false_eq_true, if_false]

theorem silence_hunting (phase : (s.port p).phase = .hunting) : silence p s = s := by
  simp only [silence, phase, ite_self]

theorem silence_receiving {kept : List Byte} (hears : s.portsReceive = true)
    (phase : (s.port p).phase = .receiving kept) : silence p s = frameErrorAt p s := by
  simp only [silence, hears, if_true, phase]

theorem silence_skipping {taken : List Byte} (hears : s.portsReceive = true)
    (phase : (s.port p).phase = .skipping taken) : silence p s = s.setPhase p .hunting := by
  simp only [silence, hears, if_true, phase]

/-! ## A character fault (R138) -/

/-- In HUNTING and in RECEIVING the fault is counted, and the receiver hunts. -/
theorem charFault_counted (hears : s.portsReceive = true) (counts : ∀ taken, (s.port p).phase ≠ .skipping taken) :
    charFault p s =
      s.setPort p
        { s.port p with frameErrors := satInc (s.port p).frameErrors, phase := .hunting, line := .lowFault } := by
  have counted : charFault p s = frameErrorAt p (s.lineFaulty p) := by
    simp only [charFault, hears, if_true]
    cases phase : (s.port p).phase with
    | skipping taken => exact absurd phase (counts taken)
    | hunting | receiving kept => rfl
  rw [counted]
  simp only [frameErrorAt, State.lineFaulty, port_setPort_same, setPort_setPort]

/-- In SKIPPING the overrun frame ends, and nothing is counted. -/
theorem charFault_skipping {taken : List Byte} (hears : s.portsReceive = true)
    (phase : (s.port p).phase = .skipping taken) :
    charFault p s = s.setPort p { s.port p with phase := .hunting, line := .lowFault } := by
  simp only [charFault, hears, if_true, phase, State.lineFaulty, State.setPhase, port_setPort_same, setPort_setPort]

/-- Whatever the phase, the line is then in the low period of a fault. -/
theorem charFault_line (p : Port) (s : State) : ((charFault p s).port p).line = .lowFault := by
  cases hears : s.portsReceive with
  | false => simp [charFault_deaf p s hears, State.lineFaulty]
  | true =>
    cases phase : (s.port p).phase with
    | skipping taken => simp [charFault_skipping hears phase]
    | hunting | receiving kept => simp [charFault_counted (p := p) hears (by simp [phase])]

/-! ## The commands -/

theorem exec_gapLimitExceeded (p : Port) (chars : List Byte) (s : State) :
    exec (.gapLimitExceeded p chars) s = .next (silence p (receiveChars p chars s)) := rfl

theorem exec_characterFault (p : Port) (chars : List Byte) (s : State) :
    exec (.characterFault p chars) s = .next (charFault p (receiveChars p chars s)) := rfl

/-- While the ports do not receive, characters show at most that the line is at 1. -/
theorem receiveChars_deaf_high (chars : List Byte) (deaf : s.portsReceive = false) (high : (s.port p).line = .high) :
    receiveChars p chars s = s := by
  by_cases empty : chars = []
  · rw [empty, receiveChars_nil]
  · rw [receiveChars_deaf p chars empty s deaf, lineHigh_of_high p s high]

/-- Settles O26: what one character does in each phase, and what a silence and a character fault do in the phase that the
characters before them leave. -/
theorem gapAndCharacterFaultByPhase : Obligations.GapAndCharacterFaultByPhase := by
  intro s p chars u counted
  have counts : satInc (u.port p).frameErrors = counted := satInc_eq _
  refine ⟨portsReceive_iff s, rfl, fun b n => ?bits, rfl, fun b => receiveChars_append p chars [b] s,
    fun deaf => ⟨receiveChars_deaf_high chars deaf, fun nonempty => receiveChars_deaf p chars nonempty s deaf⟩,
    fun b hears phase => ⟨fun noDelimiter => ?discarded, fun delimiter idle => ?begins⟩,
    fun kept b hears phase more => ?kept, fun taken b hears phase more => ?dropped,
    fun deaf => ?deaf, fun hears phase => ?hunting, fun kept hears phase => ?receiving,
    fun taken hears phase => ?skipping⟩
  case bits => exact congrArg Host.Outcome.next (receiveLine_fault p chars b n s).symm
  case discarded => exact (receiveChars_one p b s).trans (receiveChar_discarded hears phase noDelimiter)
  case begins =>
    subst delimiter
    exact (receiveChars_one p 0xD1 s).trans (receiveChar_begins hears phase idle)
  case kept => exact (receiveChars_one p b s).trans (receiveChar_kept hears phase more)
  case dropped => exact (receiveChars_one p b s).trans (receiveChar_dropped hears phase more)
  case deaf =>
    rw [exec_gapLimitExceeded, exec_characterFault, silence_deaf deaf, charFault_deaf p _ deaf]
    exact ⟨rfl, rfl⟩
  case hunting =>
    rw [exec_gapLimitExceeded, exec_characterFault, silence_hunting phase, charFault_counted hears (by simp [phase]),
      counts, ← phase]
    exact ⟨rfl, rfl⟩
  case receiving =>
    rw [exec_gapLimitExceeded, exec_characterFault, silence_receiving hears phase,
      charFault_counted hears (by simp [phase]), frameErrorAt, counts]
    exact ⟨rfl, rfl⟩
  case skipping =>
    rw [exec_gapLimitExceeded, exec_characterFault, silence_skipping hears phase, charFault_skipping hears phase]
    exact ⟨rfl, rfl⟩

end Sys2Proof.Machine
end

section
/-! PROOFS. Breaks (R117, R143): what a break does by where the part stands, by the low period on record and by the port state. -/

namespace Sys2Proof.Machine

variable {s : State} {p : Port}

theorem exec_lineBreak (p : Port) (s : State) : exec (.lineBreak p) s = .next (takeBreak p s) := rfl

theorem inService_iff (s : State) : s.inService = true ↔ s.lifecycle ≠ .inReset ∧ s.lifecycle ≠ .loading := by
  unfold State.inService
  cases s.lifecycle <;> simp

/-! ## The break by the low period on record -/

theorem takeBreak_beforeService (closed : s.inService = false) :
    takeBreak p s = s.setPort p { s.port p with line := .lowBreak } := by
  simp only [takeBreak, closed, Bool.false_eq_true, if_false]

theorem takeBreak_again (service : s.inService = true) (line : (s.port p).line = .lowBreak) : takeBreak p s = s := by
  simp only [takeBreak, service, if_true, line]

theorem takeBreak_lowFault (service : s.inService = true) (line : (s.port p).line = .lowFault) :
    takeBreak p s = breakOnce p s := by
  simp only [takeBreak, service, if_true, line]

/-- Log 15: where no fault is on record the break acts as the fault of its low period and then the break. -/
theorem takeBreak_high (service : s.inService = true) (line : (s.port p).line = .high) :
    takeBreak p s = takeBreak p (charFault p s) := by
  rw [takeBreak_lowFault ((inService_congr (charFault_lifecycle s p)).trans service) (charFault_line p s)]
  simp only [takeBreak, service, if_true, line]

/-! ## The break by the port state -/

theorem breakOnce_open (opened : s.isOpen p = true) :
    breakOnce p s =
      (portReset p .lineBreak s).setPort p { (portReset p .lineBreak s).port p with line := .lowBreak } := by
  have state : (s.port p).state = .opened := by simpa [State.isOpen] using opened
  simp only [breakOnce, breakAt, state]

theorem breakOnce_notOpen (notOpen : s.isOpen p = false) :
    breakOnce p s =
      s.setPort p
        { s.port p with state := .closed, cache := none, refusal := none, refusals := 0, line := .lowBreak } := by
  have closes : breakAt p s = s.setPort p (s.port p).closeExpired := by
    unfold breakAt
    cases state : (s.port p).state with
    | opened => simp [State.isOpen, state] at notOpen
    | expired | closed => rfl
  rw [breakOnce, closes, port_setPort_same, setPort_setPort]
  rfl

/-! ## A low period that began before the load had ended (R117) -/

/-- Characters and then a character fault, while the ports do not receive. -/
theorem charFault_receiveChars_deaf (p : Port) (chars : List Byte) (deaf : s.portsReceive = false) :
    charFault p (receiveChars p chars s) = s.lineFaulty p := by
  by_cases empty : chars = []
  · rw [empty, receiveChars_nil, charFault_deaf p s deaf]
  · rw [receiveChars_deaf p chars empty s deaf, charFault_deaf p (s.lineHigh p) deaf]
    simp only [State.lineFaulty, State.lineHigh, port_setPort_same, setPort_setPort]

theorem exec_powerUpLoadEnd_loading (loading : s.lifecycle = .loading) : exec .powerUpLoadEnd s = .next (endLoad s) :=
  congrArg Host.Outcome.next (if_pos loading)

/-- Settles O30: the break by where the part stands and by the record of the low period, and the run from a fault before the
load has ended to the break after it. -/
theorem breakActsOncePerLowPeriod : Obligations.BreakActsOncePerLowPeriod := by
  intro s p
  refine ⟨inService_iff s, fun closed => ?noted, fun service line => ?again, fun service line => ?fault,
    fun service line => ⟨fun opened => ?reset, fun notOpen => ?close⟩, fun loading closed chars => ?early⟩
  case noted => rw [exec_lineBreak, takeBreak_beforeService closed]
  case again => rw [exec_lineBreak, takeBreak_again service line]
  case fault =>
    refine ⟨charFault p s, rfl, charFault_line p s, ?_⟩
    rw [exec_lineBreak, exec_lineBreak, takeBreak_high service line]
  case reset => rw [exec_lineBreak, takeBreak_lowFault service line, breakOnce_open opened]
  case close => rw [exec_lineBreak, takeBreak_lowFault service line, breakOnce_notOpen notOpen]
  case early =>
    have deaf : s.portsReceive = false := by simp [State.portsReceive, loading]
    have record : (endLoad (s.lineFaulty p)).port p = { s.port p with line := .lowFault } := by
      rw [endLoad_port, State.lineFaulty, port_setPort_same]
    have notOpen : (endLoad (s.lineFaulty p)).isOpen p = false := by simp [State.isOpen, record, closed]
    refine ⟨s.lineFaulty p, endLoad (s.lineFaulty p), _, ?_, exec_powerUpLoadEnd_loading loading, exec_lineBreak p _,
      rfl, ?_⟩
    · rw [exec_characterFault, charFault_receiveChars_deaf p chars deaf]
    · rw [takeBreak_lowFault rfl (by rw [record]), breakOnce_notOpen notOpen, port_setPort_same, record, ← closed]

end Sys2Proof.Machine
end

section
/-! PROOFS. Filing of events (R120 to R122): whom an event is addressed to by its kind, what an addressed box takes of it with and
without room in its queue, and the statement put together from them. -/

namespace Sys2Proof.Machine

variable {s : State} {ev : Event} {m : Mailbox} {q : Port}

/-! ## Addressing by subscription (Table 7-2) -/

theorem subscribes_edge (kind : ev.kind = .edge) :
    m.subscribes ev = true ↔ m.trackMask.getLsbD ev.subject.toNat = true := by
  rw [Mailbox.subscribes, kind]

theorem subscribes_class {c : EventClass} (cls : ev.kind.cls = some c) :
    m.subscribes ev = true ↔ m.classes.getLsbD c.bit = true := by
  have notEdge : ev.kind ≠ .edge := fun edge => by rw [edge] at cls; cases cls
  unfold Mailbox.subscribes
  split
  · contradiction
  · rw [cls, Option.any_some]

/-- PRESET_WITHDRAWN and COMMIT_WITHDRAWN go to their direct addressee only. -/
theorem subscribes_noClass (notEdge : ev.kind ≠ .edge) (cls : ev.kind.cls = none) : m.subscribes ev = false := by
  unfold Mailbox.subscribes
  split
  · contradiction
  · rw [cls, Option.any_none]

theorem addressed_iff :
    s.addressed ev q = true ↔ s.isOpen q = true ∧ (ev.direct = some q ∨ (s.box q).subscribes ev = true) := by
  simp [State.addressed]

/-! ## What a box takes of an event (R121, R122) -/

theorem file_room {r : Word16 → Record} (room : m.queue.length < 32) :
    m.file r = { m with queue := m.queue ++ [r m.nextSeq], nextSeq := m.nextSeq + 1 } :=
  if_pos room

theorem file_full {r : Word16 → Record} (full : 32 ≤ m.queue.length) :
    m.file r = { m with lost := satInc m.lost, nextSeq := m.nextSeq + 1 } :=
  if_neg (Nat.not_lt.2 full)

theorem produce_box_addressed (addressed : s.addressed ev q = true) :
    (produce ev s).box q = (s.box q).file (s.recordOf ev) := by
  rw [produce_box, if_pos addressed]

theorem produce_box_notAddressed (others : ¬ s.addressed ev q = true) : (produce ev s).box q = s.box q := by
  rw [produce_box, if_neg others]

/-- Settles O8: the kinds by their class, and the box of a port by whether it is addressed and has room. -/
theorem eventIsFiledOrLost : Obligations.EventIsFiledOrLost := by
  refine ⟨fun ev m => ?byKind, fun ev s => ⟨rfl, fun q => ⟨fun closed => ?closed, fun direct noClass => ?others,
    fun opened named room => ?filed, fun opened named full => ?lost⟩⟩⟩
  case byKind =>
    cases kind : ev.kind with
    | edge => exact subscribes_edge kind
    | presetDone | referenceChanged | axisFault | signalRestored =>
      exact subscribes_class (c := .axis) (by rw [kind]; rfl)
    | swapDone => exact subscribes_class (c := .program) (by rw [kind]; rfl)
    | ownerChanged => exact subscribes_class (c := .ownership) (by rw [kind]; rfl)
    | outputsEnabled | outputsDisabled => exact subscribes_class (c := .outputs) (by rw [kind]; rfl)
    | storeDone | storeFailed | eraseDone => exact subscribes_class (c := .store) (by rw [kind]; rfl)
    | presetWithdrawn | commitWithdrawn =>
      have noClass : m.subscribes ev = false := subscribes_noClass (by simp [kind]) (by rw [kind]; rfl)
      exact iff_false_intro (Bool.eq_false_iff.1 noClass)
  case closed =>
    refine produce_box_notAddressed (mt addressed_iff.1 fun ⟨opened, _⟩ => ?_)
    exact Bool.eq_false_iff.1 closed opened
  case others =>
    refine produce_box_notAddressed (mt addressed_iff.1 fun ⟨_, named⟩ => ?_)
    exact named.elim direct (Bool.eq_false_iff.1 noClass)
  case filed =>
    rw [produce_box_addressed (addressed_iff.2 ⟨opened, named⟩), file_room room]
    rfl
  case lost => rw [produce_box_addressed (addressed_iff.2 ⟨opened, named⟩), file_full full, satInc_eq]

end Sys2Proof.Machine
end

section
/-! PROOFS. SUBSCRIBE and FETCH-EVENTS (R126, R128): the cases of each request, and the statement put together from them. -/

namespace Sys2Proof.Machine

variable {s : State} {p : Port} {payload : List Byte}

/-! ## The cases of the requests -/

/-- R170: a set bit among the three high ones of the class set. -/
theorem reqSubscribe_undefinedClass (undefined : 31 < u8 payload 2) : reqSubscribe p payload s = refuseRange s 1 :=
  if_neg (Nat.not_lt.2 undefined)

theorem reqSubscribe_admitted (defined : u8 payload 2 ≤ 31) :
    reqSubscribe p payload s =
      replyOk (s.setBox p { s.box p with trackMask := word16 payload 0, classes := BitVec.ofNat 5 (u8 payload 2) }) 0
        (be16 (s.box p).trackMask ++ [(s.box p).classes.setWidth 8]) :=
  if_pos (Nat.lt_succ_of_le defined)

theorem reqFetchEvents_outOfRange (count : u8 payload 0 = 0 ∨ 8 < u8 payload 0) :
    reqFetchEvents p payload s = refuseRange s 0 := by
  have outside : ¬ (decide (1 ≤ u8 payload 0) && decide (u8 payload 0 ≤ 8)) = true := by
    simp only [Bool.and_eq_true, decide_eq_true_eq]
    omega
  exact if_neg outside

/-- R128: a fetch of more records than are queued takes them all. -/
theorem fetchPayload_eq (m : Mailbox) (n : Nat) :
    fetchPayload m n =
      be16 m.lost ++ [byteOf (min n m.queue.length)] ++
        (m.queue.take n).flatMap fun x =>
          be16 x.seq ++ [x.kind.code, x.subject] ++ be24 x.detail ++ be32 x.time ++ be24 x.position ++ be24 x.extra := by
  rw [fetchPayload, List.length_take, List.append_assoc]
  rfl

theorem reqFetchEvents_admitted (notZero : 1 ≤ u8 payload 0) (atMost : u8 payload 0 ≤ 8) :
    reqFetchEvents p payload s =
      replyOk (s.setBox p { s.box p with queue := (s.box p).queue.drop (u8 payload 0), lost := 0 })
        (BitVec.ofNat 16 ((s.box p).queue.length - u8 payload 0)) (fetchPayload (s.box p) (u8 payload 0)) := by
  simp only [reqFetchEvents, notZero, atMost, decide_true, Bool.and_self, if_true, List.length_drop]

/-- Settles O54: each clause is one case of its request. -/
theorem subscribeAndFetchEvents : Obligations.SubscribeAndFetchEvents := by
  intro s p seq payload
  refine ⟨fun accepted => ⟨fun undefined => ?undefinedClass, fun defined => ?subscribed⟩, fun accepted => ?fetch⟩
  case undefinedClass => exact refuses_of accepted (reqSubscribe_undefinedClass undefined) rfl
  case subscribed => exact completes_of accepted (reqSubscribe_admitted defined) rfl
  case fetch =>
    refine ⟨fun count => ?outOfRange, fun notZero atMost => ?fetched⟩
    case outOfRange => exact refuses_of accepted (reqFetchEvents_outOfRange count) rfl
    case fetched =>
      rw [← fetchPayload_eq]
      exact completes_of accepted (reqFetchEvents_admitted notZero atMost) rfl

end Sys2Proof.Machine
end

section
/-! PROOFS. The queues (R122, R124): filing an event, a fetch and a reset keep the law of a box, and every operation does nothing
else to a queue; the invariant of every step put together from them. -/

namespace Sys2Proof.Machine

variable {s t : State}

/-! ## One box -/

/-- R124 for one port: at most 32 records are queued, and records are lost only while 32 are. -/
def Mailbox.Bounded (m : Mailbox) : Prop := m.queue.length ≤ 32 ∧ (m.lost ≠ 0 → m.queue.length = 32)

theorem mailLaw_iff : mailLaw s ↔ ∀ p, (s.box p).Bounded := Iff.rfl

theorem bounded_of_noneLost {m : Mailbox} (queued : m.queue.length ≤ 32) (noneLost : m.lost = 0) : m.Bounded :=
  ⟨queued, fun lost => absurd noneLost lost⟩

theorem bounded_reset : Mailbox.reset.Bounded := bounded_of_noneLost (Nat.zero_le 32) rfl

/-- R122: a record is appended only below 32, and lost only at 32. -/
theorem bounded_file {m : Mailbox} (r : Word16 → Record) (bounded : m.Bounded) : (m.file r).Bounded := by
  obtain ⟨atMost, lostFull⟩ := bounded
  obtain room | full := Nat.lt_or_ge m.queue.length 32
  · have noneLost : m.lost = 0 := Decidable.byContradiction fun lost => Nat.ne_of_lt room (lostFull lost)
    rw [file_room room]
    refine bounded_of_noneLost ?_ noneLost
    rw [List.length_append]
    exact room
  · rw [file_full full]
    exact ⟨atMost, fun _ => Nat.le_antisymm atMost full⟩

/-- R128: a fetch takes records out of the queue and sets the lost count to 0. -/
theorem bounded_fetched {m : Mailbox} (n : Nat) (bounded : m.Bounded) :
    { m with queue := m.queue.drop n, lost := 0 }.Bounded := by
  obtain ⟨atMost, -⟩ := bounded
  refine bounded_of_noneLost ?_ rfl
  rw [List.length_drop]
  exact Nat.le_trans (Nat.sub_le _ n) atMost

/-! ## All boxes -/

theorem mailLaw_congr (same : t.mail = s.mail) (law : mailLaw s) : mailLaw t := by
  simpa only [mailLaw, State.box, same] using law

theorem mailLaw_setBox {p : Port} {m : Mailbox} (bounded : m.Bounded) (law : mailLaw s) : mailLaw (s.setBox p m) := by
  refine mailLaw_iff.2 fun q => ?_
  rw [box_setBox]
  split
  · exact bounded
  · exact law q

theorem mailLaw_produce (ev : Event) (law : mailLaw s) : mailLaw (produce ev s) := by
  refine mailLaw_iff.2 fun q => ?_
  rw [produce_box]
  split
  · exact bounded_file _ (law q)
  · exact law q

/-- An event produced once other blocks have taken their new values. -/
theorem mailLaw_produce_after (ev : Event) (same : t.mail = s.mail) (law : mailLaw s) : mailLaw (produce ev t) :=
  mailLaw_produce ev (mailLaw_congr same law)

theorem mailLaw_produceIf (c : Bool) (ev : Event) (law : mailLaw s) : mailLaw (produceIf c ev s) := by
  unfold produceIf
  split
  · exact mailLaw_produce ev law
  · exact law

/-! ## Tracks -/

theorem mailLaw_evalTrack (c : EdgeCause) (i : TrackNo) (law : mailLaw s) : mailLaw (evalTrack c s i) := by
  unfold evalTrack
  split
  · exact law
  · exact mailLaw_produce_after _ rfl law

theorem mailLaw_reevaluate (c : EdgeCause) (ts : List TrackNo) (law : mailLaw s) : mailLaw (reevaluate c ts s) := by
  induction ts generalizing s with
  | nil => rwa [reevaluate_nil]
  | cons i ts ih =>
    rw [reevaluate_cons]
    exact ih (mailLaw_evalTrack c i law)

theorem mailLaw_reevaluateAll (c : EdgeCause) (law : mailLaw s) : mailLaw (reevaluateAll c s) :=
  mailLaw_reevaluate c _ law

theorem mailLaw_freeTracks (f : TrackNo → Bool) (p : Port) (cause : Byte) (law : mailLaw s) :
    mailLaw (freeTracks f p cause s) :=
  mailLaw_reevaluate _ _ (mailLaw_produce_after _ rfl law)

/-! ## The edit unit -/

theorem mailLaw_swapWith (e : EditSession) (tag : Word16) (law : mailLaw s) : mailLaw (swapWith e tag s) :=
  mailLaw_reevaluateAll _ (mailLaw_produce_after _ rfl law)

theorem mailLaw_swapPending (law : mailLaw s) : mailLaw (swapPending s) := by
  unfold swapPending
  split
  · exact law
  split
  · exact law
  · exact mailLaw_swapWith _ _ law

theorem mailLaw_editAtIndex (law : mailLaw s) : mailLaw (editAtIndex s) := by
  unfold editAtIndex
  split
  · exact mailLaw_swapPending law
  · exact law

theorem mailLaw_editAtPeriodEnd (law : mailLaw s) : mailLaw (editAtPeriodEnd s) := by
  unfold editAtPeriodEnd
  split
  · exact mailLaw_swapPending law
  · exact law

theorem mailLaw_withdrawCommit (cause : Byte) (law : mailLaw s) : mailLaw (withdrawCommit cause s) := by
  unfold withdrawCommit
  split
  · exact law
  split
  · exact law
  · exact mailLaw_produce_after _ rfl law

theorem mailLaw_endSession (law : mailLaw s) : mailLaw (endSession s) := by
  unfold endSession
  split
  · exact law
  split
  · exact mailLaw_congr rfl law
  · exact mailLaw_produce_after _ rfl law

/-! ## Faults and the decoder's samples -/

theorem mailLaw_noteFault (k : FaultKind) (d : Word24) (law : mailLaw s) : mailLaw (noteFault k d s) :=
  mailLaw_produce_after _ rfl law

theorem mailLaw_lowerReference (k : FaultKind) (law : mailLaw s) : mailLaw (lowerReference k s) :=
  mailLaw_produce_after _ rfl law

theorem mailLaw_raiseLowering (k : FaultKind) (d : Word24) (law : mailLaw s) : mailLaw (raiseLowering k d s) := by
  have noted : mailLaw (noteFault k d s) := mailLaw_noteFault k d law
  simp only [raiseLowering]
  split
  · exact noted
  · exact mailLaw_reevaluateAll _ (mailLaw_lowerReference k noted)

/-- R91: in either order of the two re-evaluations. -/
theorem mailLaw_takeArrival (d : Dir) (law : mailLaw s) : mailLaw (takeArrival d s) := by
  have moved : mailLaw (stepPosition d s) := mailLaw_congr rfl law
  have chosen : mailLaw (stepPosition d s).advanceChoices := mailLaw_congr rfl law
  simp only [takeArrival]
  split
  · split
    · exact mailLaw_swapPending (mailLaw_reevaluateAll _ chosen)
    · exact mailLaw_reevaluateAll _ (mailLaw_swapPending chosen)
  · exact mailLaw_reevaluateAll _ moved

theorem mailLaw_sampleCount (a b : Bool) (law : mailLaw s) : mailLaw (sampleCount a b s) := by
  have taken : mailLaw (s.setCounter { s.counter with lineA := a, lineB := b, resyncCount := false }) :=
    mailLaw_congr rfl law
  simp only [sampleCount]
  split
  · exact taken
  split
  · exact taken
  · exact mailLaw_takeArrival _ taken
  · exact mailLaw_raiseLowering _ _ taken

theorem mailLaw_placePosition (mode : PresetMode) (value : Nat) (p : Port) (r : Option Nat) (law : mailLaw s) :
    mailLaw (placePosition mode value p r s) :=
  mailLaw_reevaluateAll _ (mailLaw_produce_after _ rfl law)

/-- R92: in either order of the two re-evaluations. -/
theorem mailLaw_driftEdge (d : Nat) (law : mailLaw s) : mailLaw (driftEdge d s) := by
  have lowered : mailLaw (lowerReference .indexDrift (noteFault .indexDrift (BitVec.ofNat 24 d) s)) :=
    mailLaw_lowerReference _ (mailLaw_noteFault _ _ law)
  have chosen : mailLaw (lowerReference .indexDrift (noteFault .indexDrift (BitVec.ofNat 24 d) s)).advanceChoices :=
    mailLaw_congr rfl lowered
  simp only [driftEdge]
  split
  · split
    · exact mailLaw_swapPending (mailLaw_reevaluateAll _ chosen)
    · exact mailLaw_reevaluateAll _ (mailLaw_swapPending chosen)
  · exact mailLaw_reevaluateAll _ lowered

theorem mailLaw_takeIndexEdge (law : mailLaw s) : mailLaw (takeIndexEdge s) := by
  unfold takeIndexEdge
  split
  · exact mailLaw_editAtIndex (mailLaw_placePosition _ _ _ _ law)
  split
  · split
    · exact mailLaw_editAtIndex (mailLaw_congr rfl law)
    split
    · exact mailLaw_driftEdge _ law
    · exact mailLaw_editAtIndex law
  · exact mailLaw_editAtIndex law

theorem mailLaw_sampleIndex (i : Bool) (law : mailLaw s) : mailLaw (sampleIndex i s) := by
  have taken : mailLaw (s.setCounter { s.counter with lineIndex := i, resyncIndex := false }) := mailLaw_congr rfl law
  simp only [sampleIndex]
  split
  · exact taken
  split
  · exact mailLaw_takeIndexEdge taken
  · exact taken

/-! ## Receivers, sample periods and the geometry -/

theorem mailLaw_receiversFail (l : LineSet) (law : mailLaw s) : mailLaw (receiversFail l s) := by
  simp only [receiversFail]
  split
  · exact mailLaw_congr rfl law
  split
  · exact mailLaw_congr rfl law
  split
  · exact law
  · exact mailLaw_raiseLowering _ _ (mailLaw_congr rfl law)

theorem mailLaw_judgeOverspeed (law : mailLaw s) : mailLaw (judgeOverspeed s) := by
  have judged : mailLaw (s.setMonitor { s.monitor with overspeed := s.monitor.overLimit }) := mailLaw_congr rfl law
  simp only [judgeOverspeed]
  split
  · exact mailLaw_noteFault _ _ judged
  · exact judged

theorem mailLaw_act (x : PeriodReceiver) (law : mailLaw s) : mailLaw (x.act s) := by
  cases x with
  | motion => exact mailLaw_reevaluate _ _ (mailLaw_congr rfl law)
  | edit => exact mailLaw_editAtPeriodEnd law
  | overspeed => exact mailLaw_judgeOverspeed law

/-- R29: the receivers of a period end, in any of their orders. -/
theorem mailLaw_periodReceivers (xs : List PeriodReceiver) (law : mailLaw s) :
    mailLaw (xs.foldl PeriodReceiver.act s) :=
  List.foldlRecOn (motive := mailLaw) xs PeriodReceiver.act law fun _ kept x _ => mailLaw_act x kept

theorem mailLaw_closeSamplePeriod (law : mailLaw s) : mailLaw (closeSamplePeriod s) := by
  simp only [closeSamplePeriod]
  split
  · exact mailLaw_periodReceivers _ (mailLaw_congr rfl law)
  · exact mailLaw_periodReceivers _ (mailLaw_congr rfl law)

theorem mailLaw_withdrawPreset (cause : Byte) (law : mailLaw s) : mailLaw (withdrawPreset cause s) := by
  unfold withdrawPreset
  split
  · exact law
  · exact mailLaw_produce_after _ rfl law

theorem mailLaw_freeAxis (p : Port) (cause : Byte) (law : mailLaw s) : mailLaw (freeAxis p cause s) :=
  mailLaw_produce_after _ rfl law

theorem mailLaw_changeGeometry (x : AxisConfig) (law : mailLaw s) : mailLaw (changeGeometry x s) := by
  have withdrawn : mailLaw (withdrawPreset 2 (placeGeometry x s)) := mailLaw_withdrawPreset 2 (mailLaw_congr rfl law)
  exact mailLaw_reevaluateAll _ (mailLaw_congr (recomputeShifts_mail _) (mailLaw_produceIf _ _ withdrawn))

/-! ## The store, the outputs and the port reset -/

theorem mailLaw_completeStore (cellsHold : Bool) (law : mailLaw s) : mailLaw (completeStore cellsHold s) := by
  unfold completeStore
  split
  · split
    · split
      · exact mailLaw_congr (endStore_mail _ _ _) (mailLaw_produce _ law)
      · exact mailLaw_congr (endStore_mail _ _ _) (mailLaw_produce _ law)
    · exact mailLaw_congr rfl law
  · exact law

theorem mailLaw_completeErase (law : mailLaw s) : mailLaw (completeErase s) := by
  unfold completeErase
  split
  · exact mailLaw_congr (endStore_mail _ _ _) (mailLaw_produce _ law)
  · exact law

theorem mailLaw_changeOe (level : Bool) (law : mailLaw s) : mailLaw (changeOe level s) := by
  unfold changeOe
  split
  · exact law
  split
  · exact mailLaw_produce_after _ rfl law
  · exact mailLaw_congr rfl law

theorem mailLaw_resetAxisOf (p : Port) (c : ResetCause) (law : mailLaw s) : mailLaw (resetAxisOf p c s) := by
  unfold resetAxisOf
  split
  · exact mailLaw_freeAxis p _ (mailLaw_congr rfl law)
  · exact law

theorem mailLaw_resetTracksOf (p : Port) (c : ResetCause) (law : mailLaw s) : mailLaw (resetTracksOf p c s) := by
  unfold resetTracksOf
  split
  · exact law
  · exact mailLaw_freeTracks _ p _ law

/-- R130, R152: axis and tracks are released with their events, and then the port's queue is emptied. -/
theorem mailLaw_portReset (p : Port) (c : ResetCause) (law : mailLaw s) : mailLaw (portReset p c s) := by
  have left : mailLaw (s.setPort p { s.port p with state := c.portState }) := mailLaw_congr rfl law
  have freed := mailLaw_resetTracksOf p c (mailLaw_resetAxisOf p c left)
  have ended := mailLaw_congr (resetSessionOf_mail _ p) freed
  have forgotten := mailLaw_congr (resetRequesterOf_mail _ p) ended
  exact mailLaw_congr rfl (mailLaw_setBox bounded_reset forgotten)

/-! ## The requests -/

/-- The requests that file an event or take records out of a queue. -/
def Request.touchesMail : Request → Bool
  | .claimAxis | .releaseAxis | .preset | .cancelPreset | .setAxis | .claimTracks | .releaseTracks | .setTrack | .commit
  | .abortEdit | .subscribe | .fetchEvents => true
  | _ => false

theorem handle_mail {r : Request} (quiet : r.touchesMail = false) (p : Port) (payload : List Byte) (s : State) :
    (handle r p payload s).state.mail = s.mail := by
  cases r <;> simp only [handle]
  case claimAxis | releaseAxis | preset | cancelPreset | setAxis | claimTracks | releaseTracks | setTrack | commit
    | abortEdit | subscribe | fetchEvents => exact absurd quiet (by decide)
  case identify | readAxis | readTracks => rfl
  case openPort => unfold reqOpen; split <;> rfl
  case closePort => unfold reqClose; split <;> rfl
  case readStatus => unfold reqReadStatus; simp only []; (repeat' split) <;> rfl
  case clearFault => unfold reqClearFault; (repeat' split) <;> rfl
  case restart => unfold reqRestart; (repeat' split) <;> rfl
  case clearAxisFault => unfold reqClearAxisFault; (repeat' split) <;> rfl
  case openEdit => unfold reqOpenEdit; simp only []; (repeat' split) <;> rfl
  case writeWindows => unfold reqWriteWindows; simp only []; (repeat' split) <;> rfl
  case readWindows => unfold reqReadWindows; (repeat' split) <;> rfl
  case storeSlot => unfold reqStoreSlot; simp only []; (repeat' split) <;> rfl
  case eraseSlot => unfold reqEraseSlot; (repeat' split) <;> rfl
  case loadSlot => unfold reqLoadSlot; simp only []; (repeat' split) <;> rfl
  case readSlot => unfold reqReadSlot; split <;> rfl

variable (p : Port) (payload : List Byte)

theorem mailLaw_claimAxis (law : mailLaw s) : mailLaw (reqClaimAxis p payload s).state := by
  unfold reqClaimAxis
  split
  · exact mailLaw_produce_after _ rfl law
  split
  · exact law
  · exact law

theorem mailLaw_releaseAxis (law : mailLaw s) : mailLaw (reqReleaseAxis p payload s).state := by
  unfold reqReleaseAxis
  split
  · exact mailLaw_freeAxis p 1 (mailLaw_withdrawPreset 1 law)
  · exact law

theorem mailLaw_preset (law : mailLaw s) : mailLaw (reqPreset p payload s).state := by
  unfold reqPreset
  split
  · exact law
  split
  · exact law
  split
  · exact law
  split
  · exact mailLaw_placePosition _ _ p _ law
  · exact mailLaw_congr rfl law

theorem mailLaw_cancelPreset (law : mailLaw s) : mailLaw (reqCancelPreset p payload s).state := by
  unfold reqCancelPreset
  split
  · exact law
  split
  · exact mailLaw_withdrawPreset 0 law
  · exact law

theorem mailLaw_setAxis (law : mailLaw s) : mailLaw (reqSetAxis p payload s).state := by
  unfold reqSetAxis
  split
  · exact law
  split
  · exact law
  split
  · exact law
  split
  · exact law
  split
  · exact mailLaw_congr rfl law
  · exact mailLaw_changeGeometry _ law

theorem mailLaw_claimTracks (law : mailLaw s) : mailLaw (reqClaimTracks p payload s).state := by
  simp only [reqClaimTracks]
  split
  · exact law
  split
  · exact law
  split
  · exact law
  · exact mailLaw_produceIf _ _ (mailLaw_congr rfl law)

theorem mailLaw_releaseTracks (law : mailLaw s) : mailLaw (reqReleaseTracks p payload s).state := by
  simp only [reqReleaseTracks]
  split
  · exact law
  split
  · exact law
  · exact mailLaw_freeTracks _ p 1 law

theorem mailLaw_setTrack (law : mailLaw s) : mailLaw (reqSetTrack p payload s).state := by
  unfold reqSetTrack
  split
  · exact law
  split
  · exact law
  split
  · exact mailLaw_reevaluate _ _ (mailLaw_congr rfl law)
  · exact law

theorem mailLaw_commit (law : mailLaw s) : mailLaw (reqCommit p payload s).state := by
  simp only [reqCommit]
  split
  · exact law
  split
  · exact law
  split
  · exact law
  split
  · exact law
  split
  · exact mailLaw_swapWith _ _ law
  · exact mailLaw_congr rfl law

theorem mailLaw_abortEdit (law : mailLaw s) : mailLaw (reqAbortEdit p payload s).state := by
  unfold reqAbortEdit
  split
  · exact law
  split
  · exact law
  split
  · split
    · exact mailLaw_withdrawCommit 1 law
    · exact law
  · exact mailLaw_endSession law

/-- R126: a subscription leaves queue and lost count. -/
theorem mailLaw_subscribe (law : mailLaw s) : mailLaw (reqSubscribe p payload s).state := by
  unfold reqSubscribe
  split
  · have same : Mailbox.Bounded { s.box p with trackMask := word16 payload 0, classes := BitVec.ofNat 5 (u8 payload 2) } :=
      law p
    exact mailLaw_setBox same law
  · exact law

theorem mailLaw_fetchEvents (law : mailLaw s) : mailLaw (reqFetchEvents p payload s).state := by
  simp only [reqFetchEvents]
  split
  · exact mailLaw_setBox (bounded_fetched _ (law p)) law
  · exact law

theorem mailLaw_handle (r : Request) (law : mailLaw s) : mailLaw (handle r p payload s).state := by
  by_cases quiet : r.touchesMail = false
  · exact mailLaw_congr (handle_mail quiet p payload s) law
  · cases r <;> simp only [Request.touchesMail, not_true_eq_false] at quiet
    case claimAxis => exact mailLaw_claimAxis p payload law
    case releaseAxis => exact mailLaw_releaseAxis p payload law
    case preset => exact mailLaw_preset p payload law
    case cancelPreset => exact mailLaw_cancelPreset p payload law
    case setAxis => exact mailLaw_setAxis p payload law
    case claimTracks => exact mailLaw_claimTracks p payload law
    case releaseTracks => exact mailLaw_releaseTracks p payload law
    case setTrack => exact mailLaw_setTrack p payload law
    case commit => exact mailLaw_commit p payload law
    case abortEdit => exact mailLaw_abortEdit p payload law
    case subscribe => exact mailLaw_subscribe p payload law
    case fetchEvents => exact mailLaw_fetchEvents p payload law

/-! ## The law is kept by every operation -/

/-- R113, Table 7-1: device reset empties every queue. -/
theorem mailLaw_deviceReset (s : State) : mailLaw (deviceReset s) := by
  refine mailLaw_iff.2 fun q => ?_
  have emptied : (deviceReset s).box q = Mailbox.reset := reset_box q
  rw [emptied]
  exact bounded_reset

theorem endLoad_mail (s : State) : (endLoad s).mail = s.mail := by
  unfold endLoad
  cases bootImage s <;> simp [applyImage]

theorem mailLaw_kept : Kept mailLaw where
  port _ _ _ _ _ := mailLaw_congr rfl
  request r p payload _ _ _ _ := mailLaw_handle p payload r
  reset p c _ _ := mailLaw_portReset p c
  close _ _ _ := mailLaw_congr rfl
  device s _ := mailLaw_deviceReset s
  load _ _ _ := mailLaw_congr rfl
  loaded s _ := mailLaw_congr (endLoad_mail s)
  count a b _ _ := mailLaw_sampleCount a b
  index i _ _ := mailLaw_sampleIndex i
  fail l _ := mailLaw_receiversFail l
  heal _ _ := mailLaw_congr rfl
  restore _ _ := mailLaw_produce_after _ rfl
  period _ _ := mailLaw_closeSamplePeriod
  deadline _ _ := mailLaw_withdrawCommit 0
  stored b _ := mailLaw_completeStore b
  erased _ := mailLaw_completeErase
  outputs l _ := mailLaw_changeOe l

/-- Settles O56: the law survives every shared operation, since each changes a queue only by filing, fetching or emptying. -/
theorem everyStepKeepsTheQueues : Obligations.EveryStepKeepsTheQueues := fun _ _ law stepped =>
  mailLaw_kept.step (fun _ _ => mailLaw_congr rfl) (fun _ _ _ => mailLaw_congr rfl) law stepped

end Sys2Proof.Machine
end

section
/-! PROOFS. Frames at a port (R139, R141, R142, R144 to R146): a frame that is discarded and counted, one that begins while a
response is being sent, and one that is answered from the retry cache. -/

namespace Sys2Proof.Machine

variable {s : State} {p : Port}

/-! ## Frames that are discarded (R141, R145) -/

/-- R141: wrong check bytes are one check error, whatever the receiver has kept of the frame. -/
theorem judgeFrame_wrongCheck {seq code : Byte} {payload chars : List Byte} {check : Word16}
    (phase : (s.port p).phase = .hunting) (wrong : check ≠ requestCheck seq code payload) :
    judgeFrame p seq code payload check (inFrame p chars s) =
      s.setPort p { s.port p with line := .high, checkErrors := satInc (s.port p).checkErrors } := by
  rw [judgeFrame, if_neg wrong]
  simp only [inFrame, port_setPort_same, setPort_setPort, ← phase]

/-- R139: a length byte above 160 ends the frame as one frame error. -/
theorem receiveChar_badLength {kept : List Byte} {b : Byte} (hears : s.portsReceive = true)
    (phase : (s.port p).phase = .hunting) (bad : progress (kept ++ [b]) = .badLength) :
    receiveChar p (inFrame p kept s) b =
      s.setPort p { s.port p with line := .high, frameErrors := satInc (s.port p).frameErrors } := by
  have hears' : (inFrame p kept s).portsReceive = true := hears
  simp only [receiveChar, hears', if_true]
  simp only [inFrame, port_setPort_same, charReceiving, bad, frameErrorAt, State.lineHigh, setPort_setPort, ← phase]

theorem progress_badLength (seq code : Byte) {length : Byte} (long : 160 < length.toNat) :
    progress [seq, code, length] = .badLength := if_pos long

theorem exec_checkError (p : Port) (seq code : Byte) (payload : List Byte) (check : Word16) (s : State) :
    exec (.checkError p seq code payload check) s = .next (receiveChars p (frameChars seq code payload check) s) := rfl

theorem exec_frameError (p : Port) (seq code length : Byte) (s : State) :
    exec (.frameError p seq code length) s = .next (receiveChars p [0xD1, seq, code, length] s) := rfl

/-- Settles O25: the frame reaches its last character and is judged there, or its length byte and is given up there. -/
theorem badFramesAreDiscardedAndCounted : Obligations.BadFramesAreDiscardedAndCounted := by
  intro s p seq code hears
  have ⟨receives, phase, idle⟩ := hears
  refine ⟨fun payload check short wrong => ?checkError, fun length long => ?frameError⟩
  case checkError =>
    obtain ⟨kept, judged⟩ := receiveChars_frame p s seq code payload check hears short
    rw [exec_checkError, judged, judgeFrame_wrongCheck phase wrong, satInc_eq]
  case frameError =>
    rw [exec_frameError, receiveChars_cons, receiveChar_begins receives phase idle,
      receiveChars_cons, receiveChar_more p s seq [] receives rfl, List.nil_append,
      receiveChars_cons, receiveChar_more p s code [seq] receives rfl,
      receiveChars_one, receiveChar_badLength receives phase (progress_badLength seq code long), satInc_eq]

/-! ## Overrun frames (R142) -/

/-- R142, R145: the delimiter of an overrun frame is what counts it. -/
theorem receiveChar_overruns (hears : s.portsReceive = true) (phase : (s.port p).phase = .hunting)
    (sending : (s.port p).tx ≠ none) :
    receiveChar p s 0xD1 =
      s.setPort p { s.port p with line := .high, phase := .skipping [], overruns := satInc (s.port p).overruns } := by
  have busy : ((s.lineHigh p).port p).tx.isSome = true := by
    simpa [State.lineHigh, Option.isSome_iff_ne_none] using sending
  simp only [receiveChar, hears, if_true, phase, charHunting, busy]
  simp only [State.lineHigh, port_setPort_same, setPort_setPort]

/-- R142: the character with which an overrun frame is whole, or its length is known to be bad, ends it without a count. -/
theorem receiveChar_skipped {taken : List Byte} {b : Byte} (hears : s.portsReceive = true)
    (phase : (s.port p).phase = .skipping taken) (ends : progress (taken ++ [b]) ≠ .more) :
    receiveChar p s b = s.setPort p { s.port p with line := .high, phase := .hunting } := by
  simp only [receiveChar, hears, if_true, phase, charSkipping]
  cases found : progress (taken ++ [b]) with
  | more => exact absurd found ends
  | badLength | complete =>
    simp only [State.lineHigh, State.setPhase, port_setPort_same, setPort_setPort]

/-- The rest of an overrun frame, up to the character that ends it. -/
theorem receiveChars_skipped {last : Byte} (chars : List Byte) :
    ∀ {s : State} {taken : List Byte}, s.portsReceive = true → (s.port p).phase = .skipping taken →
      (∀ n, n < chars.length → progress (taken ++ chars.take (n + 1)) = .more) →
      progress (taken ++ chars ++ [last]) ≠ .more →
      receiveChars p (chars ++ [last]) s = s.setPort p { s.port p with line := .high, phase := .hunting } := by
  induction chars with
  | nil =>
    intro s taken hears phase _ ends
    rw [List.nil_append, receiveChars_one, receiveChar_skipped hears phase (by simpa using ends)]
  | cons b rest ih =>
    intro s taken hears phase more ends
    have first : progress (taken ++ [b]) = .more := more 0 (Nat.succ_pos _)
    have later : ∀ n, n < rest.length → progress (taken ++ [b] ++ rest.take (n + 1)) = .more := fun n below => by
      simpa using more (n + 1) (Nat.succ_lt_succ below)
    rw [List.cons_append, receiveChars_cons, receiveChar_dropped hears phase first,
      ih (s := s.setPort p _) hears ?dropped later (by simpa using ends)]
    case dropped => rw [port_setPort_same]
    simp only [port_setPort_same, setPort_setPort]

theorem exec_overrun (p : Port) (s : State) : exec (.overrun p) s = .next (receiveChars p [0xD1] s) := rfl

theorem exec_overrunFrameEnd (p : Port) (chars : List Byte) (s : State) :
    exec (.overrunFrameEnd p chars) s = .next (receiveChars p chars s) := rfl

/-- Settles O27: the delimiter, the rest of the overrun frame, and the end of the response. -/
theorem overrunFrameIsCountedOnceAndSkipped : Obligations.OverrunFrameIsCountedOnceAndSkipped := by
  intro s p
  refine ⟨fun hears phase sending => ?begins, fun taken chars last hears phase more ends => ?ends, rfl⟩
  case begins => rw [exec_overrun, receiveChars_one, receiveChar_overruns hears phase sending, satInc_eq]
  case ends => rw [exec_overrunFrameEnd, receiveChars_skipped chars hears phase more ends]

/-! ## Repeats (R146) -/

/-- A frame that is a repeat is answered from the cache, in the state in which it was heard. -/
theorem takeFrame_cached {seq code : Byte} {payload : List Byte} {check : Word16} {x : Response}
    (cached : s.cached p seq code check = some x) :
    takeFrame p seq code payload check (s.lineHigh p) = sendReplay p x (heard p s) := by
  simp only [takeFrame, restartTimer_lineHigh, heard_cached, cached]

theorem heard_replays (p : Port) (s : State) : ((heard p s).port p).replays = (s.port p).replays := by
  rw [heard, port_setPort_same]

/-- R146: the key of the retry cache. -/
theorem cached_eq_some_iff {seq code : Byte} {check : Word16} {x : Response} :
    s.cached p seq code check = some x ↔
      ∃ c, (s.port p).cache = some c ∧ c.seq = seq ∧ c.code = code ∧ c.check = check ∧ c.response = x := by
  simp [State.cached, Option.map_eq_some_iff, Option.filter_eq_some_iff, and_assoc]

theorem exec_replay (p : Port) (seq code : Byte) (payload : List Byte) (s : State) :
    exec (.replay p seq code payload) s = .next (receiveChars p (requestChars seq code payload) s) := rfl

theorem exec_unknownRequest (p : Port) (seq code : Byte) (payload : List Byte) (s : State) :
    exec (.unknownRequest p seq code payload) s = .next (receiveChars p (requestChars seq code payload) s) := rfl

/-- Settles O22: the repeat's answer and its key; the rows that bring a frame put the same characters on the line. -/
theorem replayIsAnsweredFromTheCache : Obligations.ReplayIsAnsweredFromTheCache := by
  intro s p seq code payload hears short
  refine ⟨fun x cached => ?replayed, fun x => cached_eq_some_iff, fun r named => ?sameRow, ?unknownRow⟩
  case replayed =>
    rw [exec_replay, receiveChars_request p s seq code payload hears short, takeFrame_cached cached, sendReplay, heard_replays]
  case sameRow => rw [exec_command, exec_replay, named]
  case unknownRow => rw [exec_unknownRequest, exec_replay]

end Sys2Proof.Machine
end

section
/-! PROOFS. Supervision, OPEN, CLOSE and RESTART (R147, R149 to R151, R155): when a port's timer expires, the cases of the three
requests, and the statements put together from them. -/

namespace Sys2Proof.Machine

variable {s : State} {p : Port} {payload : List Byte}

/-! ## Supervision (R150, R151) -/

theorem exec_supervisionExpiry (p : Port) (s : State) :
    exec (.supervisionExpiry p) s = .next (if s.supervisionDue p then portReset p .expiry s else s) := rfl

/-- Settles O29: the two sides of what the law of the clock says of the timer. -/
theorem supervisionExpiryResetsThePort : Obligations.SupervisionExpiryResetsThePort := by
  intro s p
  refine ⟨fun start opened supervised running passed => ?due, fun reason => ?notDue⟩
  case due =>
    rw [exec_supervisionExpiry, if_pos ((supervisionDue_iff s p).2 ⟨opened, supervised, start, running, passed⟩)]
  case notDue =>
    have early : ¬ s.supervisionDue p = true := by
      rw [supervisionDue_iff]
      rintro ⟨opened, supervised, start, running, passed⟩
      obtain notOpen | unsupervised | stopped | ⟨started, running', waiting⟩ := reason
      · exact Bool.false_ne_true (notOpen.symm.trans opened)
      · exact supervised unsupervised
      · exact Option.some_ne_none start (running.symm.trans stopped)
      · obtain rfl := Option.some.inj (running.symm.trans running')
        omega
    rw [exec_supervisionExpiry, if_neg early]

/-! ## Admission by the port state (R158) -/

theorem isOpen_iff : s.isOpen p = true ↔ (s.port p).state = .opened := by simp [State.isOpen]

theorem heard_state (p : Port) (s : State) : ((heard p s).port p).state = (s.port p).state := by
  rw [heard, port_setPort_same]

theorem stateAdmits_openPort (x : PortState) : stateAdmits x (some .openPort) = true := by cases x <;> rfl

/-- A request that the port state admits, with the request's length, reaches its block. -/
theorem admission_handled {r : Request} (admits : stateAdmits (s.port p).state (some r) = true)
    (length : r.lengthOk payload.length = true) : admission p r.code payload s = handle r p payload s := by
  simp only [admission, ofCode_code, admits, length, if_true]

/-- R163: at a port that is not OPEN a refusal leaves no record. -/
theorem finish_unrecorded (p : Port) (seq code : Byte) (check : Word16) (y : State) (status : Status) (detail : Word16)
    (time : Word32) :
    finish p seq code check false (refuse y status detail) time = sent y p seq code check status detail [] := by
  simp [finish, refuse, After.act, sent, sendResponse, compose, responseFlags_flagsAt]

/-- R147, R160: what follows a response that is no refusal acts on the port that has sent it. -/
theorem finish_then (p : Port) (seq code : Byte) (check : Word16) (b : Bool) (y : State) (a : After) (time : Word32) :
    finish p seq code check b { replyOk y with after := a } time = a.act p (sent y p seq code check .ok 0 []) := by
  simp [finish, replyOk, Status.refuses, sent, sendResponse, compose, responseFlags_flagsAt]

/-! ## OPEN (R149) -/

theorem supervisionOk_iff {ms : Nat} : supervisionOk ms = true ↔ ms = 0 ∨ (10 ≤ ms ∧ ms ≤ 10000) := by
  simp [supervisionOk]

theorem reqOpen_outOfRange (outside : ¬ supervisionOk (u16 payload 0) = true) :
    reqOpen p payload s = refuse s .range 0 := if_neg outside

/-- OPEN as it is answered: the end cause is the one that stood before, NONE at an OPEN port. -/
theorem reqOpen_admitted (inRange : supervisionOk (u16 payload 0) = true) :
    reqOpen p payload s =
      replyOk
        (s.setPort p
          { s.port p with
            state := .opened, supervision := u16 payload 0, tag := word16 payload 2, endCause := .none
            timer := if u16 payload 0 = 0 then none else some s.time })
        0 [byteOf p.val, if (s.port p).state = .opened then 0 else (s.port p).endCause.code] := if_pos inRange

theorem heard_endCause (p : Port) (s : State) : ((heard p s).port p).endCause = (s.port p).endCause := by
  rw [heard, port_setPort_same]

/-- Settles O32: OPEN is admitted in every port state, and its supervision time is all that it judges. -/
theorem openSetsThePortRecord : Obligations.OpenSetsThePortRecord := by
  intro s p seq payload hears fresh length ms
  have lengthOk : Request.lengthOk .openPort payload.length = true := decide_eq_true length
  have answers : exec (Request.command .openPort p seq payload) s =
      .next (finish p seq (Request.code .openPort) (requestCheck seq (Request.code .openPort) payload) (s.isOpen p)
        (reqOpen p payload (heard p s)) s.time) := by
    rw [exec_heard .openPort hears fresh (lengthOk_le lengthOk),
      admission_handled (stateAdmits_openPort _) lengthOk]
    rfl
  have outside (bad : ¬ (ms = 0 ∨ (10 ≤ ms ∧ ms ≤ 10000))) :
      reqOpen p payload (heard p s) = refuse (heard p s) .range 0 := reqOpen_outOfRange (mt supervisionOk_iff.1 bad)
  refine ⟨fun inRange => ?opened, fun bad opened => ?recorded, fun bad notOpen => ?unrecorded⟩
  case opened =>
    rw [Completes, answers, reqOpen_admitted (supervisionOk_iff.2 inRange), replyOk, finish_done (h := rfl), heard_state,
      heard_endCause]
    simp only [isOpen_iff]
    rfl
  case recorded => exact refuses_of ⟨hears, opened, fresh, lengthOk⟩ (outside bad) rfl
  case unrecorded => rw [Completes, answers, outside bad, notOpen, finish_unrecorded]

/-! ## CLOSE (R149) -/

theorem reqClose_opened (opened : (s.port p).state = .opened) :
    reqClose p payload s = { replyOk s with after := .thenReset } := by simp only [reqClose, opened]

theorem reqClose_expired (expired : (s.port p).state = .expired) :
    reqClose p payload s = { replyOk s with after := .thenClosed } := by simp only [reqClose, expired]

/-- A CLOSE that is heard at a port that admits it: the block's answer, finished. -/
theorem exec_closePort {seq : Byte} (hears : Hears s p) (fresh : Fresh s p seq (Request.code .closePort) [])
    (admits : stateAdmits (s.port p).state (some .closePort) = true) :
    exec (.closePort p seq []) s =
      .next (finish p seq (Request.code .closePort) (requestCheck seq (Request.code .closePort) []) (s.isOpen p)
        (reqClose p [] (heard p s)) s.time) := by
  have answers := exec_heard .closePort hears fresh (Nat.zero_le 160)
  rw [admission_handled (by rw [heard_state, admits]) rfl] at answers
  exact answers

/-- Settles O33: CLOSE is answered in the state in which it was heard, and what it brings about follows. -/
theorem closeResetsAfterItsResponse : Obligations.CloseResetsAfterItsResponse := by
  intro s p seq hears fresh answered
  refine ⟨fun opened => ?opened, fun expired => ?expired⟩
  case opened =>
    have state := isOpen_iff.1 opened
    rw [exec_closePort hears fresh (by rw [state]; rfl), reqClose_opened ((heard_state p s).trans state), finish_then]
    rfl
  case expired =>
    rw [exec_closePort hears fresh (by rw [expired]; rfl), reqClose_expired ((heard_state p s).trans expired), finish_then]
    rfl

/-! ## RESTART (R155) -/

theorem otherOpen_eq_some_iff {q : Port} :
    otherOpen s p = some q ↔ (q ≠ p ∧ s.isOpen q = true) ∧ ∀ o, o < q → o ≠ p → s.isOpen o = false := by
  simp [otherOpen, Table.find_numbers_some]

theorem otherOpen_eq_none_iff : otherOpen s p = none ↔ ∀ q, q ≠ p → s.isOpen q = false := by
  simp [otherOpen]

@[simp] theorem heard_otherOpen (p : Port) (s : State) (q : Port) : otherOpen (heard p s) q = otherOpen s q := by
  simp only [otherOpen, heard_isOpen]

theorem reqRestart_inUse {q : Port} (other : otherOpen s p = some q) :
    reqRestart p payload s = refuse s .inUse (BitVec.ofNat 16 q.val) := by
  simp only [reqRestart, other, portWord]

theorem reqRestart_storeBusy {o : StoreOp} (alone : otherOpen s p = none) (busy : s.store.op = some o) :
    reqRestart p payload s = refuse s .storeBusy (BitVec.ofNat 16 o.slot.val) := by
  simp only [reqRestart, alone, busy]

theorem reqRestart_admitted (alone : otherOpen s p = none) (idle : s.store.op = none) :
    reqRestart p payload s = replyOk { s with lifecycle := .restarting p } := by
  simp only [reqRestart, alone, idle, State.setLifecycle]

/-- While the ports do not receive, any characters at all show that the line is at 1, and none show nothing. -/
theorem receiveChars_deaf_eq (q : Port) (chars : List Byte) (deaf : s.portsReceive = false) :
    receiveChars q chars s = if chars = [] then s else s.setPort q { s.port q with line := .high } := by
  split
  · next empty => rw [empty, receiveChars_nil]
  · next nonempty => exact receiveChars_deaf q chars nonempty s deaf

/-- Settles O36: the two conditions in their order, and that the lifecycle of an admitted RESTART is one in which no port
receives. -/
theorem restartWaitsForPortsAndStore : Obligations.RestartWaitsForPortsAndStore := by
  intro s p seq accepted
  refine ⟨fun q other opened lowest => ?inUse, fun noOther => ?alone⟩
  case inUse =>
    have found : otherOpen (heard p s) p = some q := by
      rw [heard_otherOpen, otherOpen_eq_some_iff]
      exact ⟨⟨other, opened⟩, lowest⟩
    exact refuses_of accepted (reqRestart_inUse (payload := []) found) rfl
  case alone =>
    have alone : otherOpen (heard p s) p = none := by rwa [heard_otherOpen, otherOpen_eq_none_iff]
    refine ⟨fun o busy => ?storeBusy, fun idle => ?admitted⟩
    case storeBusy => exact refuses_of accepted (reqRestart_storeBusy (payload := []) alone busy) rfl
    case admitted =>
      have completes : Completes s p .restart seq [] { heard p s with lifecycle := .restarting p } .ok 0 [] :=
        completes_of accepted (reqRestart_admitted (payload := []) alone idle) rfl
      refine ⟨completes, fun t answer => ?_⟩
      obtain rfl := Host.Outcome.next.inj (completes.symm.trans answer)
      exact ⟨rfl, fun q chars => receiveChars_deaf_eq q chars rfl⟩

end Sys2Proof.Machine
end

section
/-! PROOFS. The formats of chapters 8 and 10 (R137 to R139, R159, R170, R172; Tables 8-2, 10-1, 10-2, 10-3, 10-5): the
characters of a line and of a transmitter, fields and their byte order, and what the receiver reads back from a frame. -/

namespace Sys2Proof.Machine

/-! ## The characters of a line (R137, R138) -/

/-- A line that stays at 1 carries no character. -/
theorem readLine_idle (n : Nat) : readLine (List.replicate n true) = [] := by
  simpa [readLine, readBits] using readBits_idle n []

/-- A character is read after any time that the line is idle. -/
theorem readLine_character (n : Nat) (c : LineCharacter) (rest : List Bool) :
    readLine (List.replicate n true ++ c.bits ++ rest) = c :: readBits (if c.stop then .idle else .low) rest := by
  rw [readLine, List.append_assoc, readBits_idle, readBits_character]

theorem readLine_whole {c : LineCharacter} (n : Nat) (rest : List Bool) (stop : c.stop = true) :
    readLine (List.replicate n true ++ c.bits ++ rest) = c :: readLine rest := by
  rw [readLine_character, stop, if_pos rfl, readLine]

/-- R138: after a stop bit at 0 a line that is held at 0 gives no other character. -/
theorem readLine_heldLow {c : LineCharacter} (n k : Nat) (stop : c.stop = false) :
    readLine (List.replicate n true ++ c.bits ++ List.replicate k false) = [c] := by
  have held : readBits .low (List.replicate k false) = [] := by simpa [readBits] using readBits_low k []
  rw [readLine_character, stop, if_neg Bool.false_ne_true, held]

/-- R138: the line is read anew once it has returned to 1. -/
theorem readLine_returned {c : LineCharacter} (n k : Nat) (rest : List Bool) (stop : c.stop = false) :
    readLine (List.replicate n true ++ c.bits ++ List.replicate k false ++ true :: rest) = c :: readLine rest := by
  rw [List.append_assoc, readLine_character, stop, if_neg Bool.false_ne_true, readBits_low]
  rfl

/-! ## The transmit line (R137, R144) -/

theorem readLine_lineBits (chars : List Byte) :
    readLine (lineBits chars) = chars.map fun b => { data := b, stop := true } := by
  simpa [readLine, readBits] using readBits_lineBits chars []

/-- A character takes ten bit times. -/
theorem lineBits_length (chars : List Byte) : (lineBits chars).length = 10 * chars.length := by
  induction chars with
  | nil => rfl
  | cons b rest ih =>
    have split : lineBits (b :: rest) = LineCharacter.bits { data := b, stop := true } ++ lineBits rest := rfl
    have ten : (LineCharacter.bits { data := b, stop := true }).length = 10 := rfl
    rw [split, List.length_append, ten, ih, List.length_cons, Nat.mul_succ, Nat.add_comm]

theorem txBits_idle {s : State} {p : Port} (idle : (s.port p).tx = none) : s.txBits p = [] := by
  simp only [State.txBits, idle]

theorem txBits_sending {s : State} {p : Port} {x : Response} (sending : (s.port p).tx = some x) :
    s.txBits p = lineBits x.chars := by simp only [State.txBits, sending]

theorem txLevel_idle {s : State} {p : Port} (idle : (s.port p).tx = none) (n : Nat) : s.txLevel p n = true := by
  rw [State.txLevel, txBits_idle idle, List.getD_nil]

theorem txLevel_eq (s : State) (p : Port) (n : Nat) :
    s.txLevel p n = if h : n < (s.txBits p).length then (s.txBits p)[n] else true := by
  rw [State.txLevel, List.getD_eq_getElem?_getD]
  split
  · next inside => rw [List.getElem?_eq_getElem inside, Option.getD_some]
  · next past => rw [List.getElem?_eq_none (Nat.le_of_not_lt past), Option.getD_none]

/-- Table 8-2. -/
theorem bitRate_eq (straps : BitVec 2) :
    bitRate straps =
      if straps = 0 then 115200 else if straps = 1 then 460800 else if straps = 2 then 1000000 else 3000000 := by
  revert straps; decide

/-! ## The byte order of a field (R170) -/

theorem extractLsb'_append_byte {n : Nat} (x : BitVec n) (b : Byte) (i : Nat) :
    (x ++ b).extractLsb' (i + 8) 8 = x.extractLsb' i 8 := by
  rw [BitVec.extractLsb'_append_eq_of_le (Nat.le_add_left 8 i), Nat.add_sub_cancel]

theorem extractLsb'_append_last {n : Nat} (x : BitVec n) (b : Byte) : (x ++ b).extractLsb' 0 8 = b := by
  rw [BitVec.extractLsb'_append_eq_of_add_le (Nat.le_refl 8), BitVec.extractLsb'_eq_self]

theorem be16_append (a b : Byte) : be16 (a ++ b : BitVec 16) = [a, b] := by
  have high : (a ++ b : BitVec 16).extractLsb' 8 8 = a := BitVec.extractLsb'_append_eq_left
  have low : (a ++ b : BitVec 16).extractLsb' 0 8 = b := extractLsb'_append_last a b
  rw [be16, high, low]

/-- The last byte of a field is its lowest. -/
theorem be24_append (x : Word16) (c : Byte) : be24 (x ++ c : BitVec 24) = be16 x ++ [c] := by
  have high : (x ++ c : BitVec 24).extractLsb' 16 8 = x.extractLsb' 8 8 := extractLsb'_append_byte x c 8
  have middle : (x ++ c : BitVec 24).extractLsb' 8 8 = x.extractLsb' 0 8 := extractLsb'_append_byte x c 0
  have low : (x ++ c : BitVec 24).extractLsb' 0 8 = c := extractLsb'_append_last x c
  rw [be24, high, middle, low]
  rfl

theorem be32_append (x : Word24) (d : Byte) : be32 (x ++ d : BitVec 32) = be24 x ++ [d] := by
  have first : (x ++ d : BitVec 32).extractLsb' 24 8 = x.extractLsb' 16 8 := extractLsb'_append_byte x d 16
  have second : (x ++ d : BitVec 32).extractLsb' 16 8 = x.extractLsb' 8 8 := extractLsb'_append_byte x d 8
  have third : (x ++ d : BitVec 32).extractLsb' 8 8 = x.extractLsb' 0 8 := extractLsb'_append_byte x d 0
  have last : (x ++ d : BitVec 32).extractLsb' 0 8 = d := extractLsb'_append_last x d
  rw [be32, first, second, third, last]
  rfl

/-- R170: what two, three and four bytes make is sent as these bytes, in their order. -/
theorem fields_sent (a b c d : Byte) :
    be16 (a ++ b : BitVec 16) = [a, b] ∧ be24 (a ++ b ++ c : BitVec 24) = [a, b, c] ∧
      be32 (a ++ b ++ c ++ d : BitVec 32) = [a, b, c, d] := by
  have two := be16_append a b
  have three : be24 (a ++ b ++ c : BitVec 24) = [a, b, c] := by rw [be24_append, two]; rfl
  exact ⟨two, three, by rw [be32_append, three]; rfl⟩

theorem u16_eq (payload : List Byte) (i : Nat) : u16 payload i = 0x100 * u8 payload i + u8 payload (i + 1) := by
  rw [u16, Nat.mul_comm]

theorem u24_eq (payload : List Byte) (i : Nat) :
    u24 payload i = 0x10000 * u8 payload i + 0x100 * u8 payload (i + 1) + u8 payload (i + 2) := by
  rw [u24, u16_eq]; omega

theorem u32_eq (payload : List Byte) (i : Nat) :
    u32 payload i =
      0x1000000 * u8 payload i + 0x10000 * u8 payload (i + 1) + 0x100 * u8 payload (i + 2) + u8 payload (i + 3) := by
  rw [u32, u24_eq]; omega

theorem word16_eq (payload : List Byte) (i : Nat) :
    word16 payload i = (payload.getD i 0 ++ payload.getD (i + 1) 0 : BitVec 16) := by
  have high := (payload.getD i 0).isLt
  have low := (payload.getD (i + 1) 0).isLt
  refine BitVec.eq_of_toNat_eq ?_
  rw [word16, u16, BitVec.toNat_append, ← Nat.shiftLeft_add_eq_or_of_lt low, Nat.shiftLeft_eq, BitVec.toNat_ofNat, u8, u8,
    Nat.mod_eq_of_lt (by omega)]

/-! ## The requests (Table 10-2) -/

/-- No code names a request but the request's own. -/
theorem code_of_ofCode {c : Byte} {r : Request} (named : Request.ofCode c = some r) : c = r.code := by
  have same : (r.code == c) = true := List.find?_some (p := fun x : Request => x.code == c) named
  exact (eq_of_beq same).symm

theorem fixedLength_eq_none {r : Request} : r.fixedLength = none ↔ r = .writeWindows := by
  cases r <;> simp [Request.fixedLength]

/-- R159, R172: the payload lengths of a request. -/
theorem lengthOk_iff (r : Request) (n : Nat) :
    r.lengthOk n = true ↔ r.fixedLength = some n ∨ (r = .writeWindows ∧ ∃ k, k ≤ 12 ∧ n = 1 + 6 * k) := by
  rw [← fixedLength_eq_none, Request.lengthOk]
  cases r.fixedLength with
  | some k => simpa using eq_comm
  | none =>
    have windows : n % 6 = 1 ∧ n ≤ 73 ↔ ∃ k, k ≤ 12 ∧ n = 1 + 6 * k :=
      ⟨fun h => ⟨n / 6, by omega⟩, fun ⟨k, most, length⟩ => by omega⟩
    simpa using windows

/-! ## The windows of a payload (R172) -/

/-- A field that lies behind some bytes is read at its offset among those that follow them. -/
theorem u8_append (front payload : List Byte) (i : Nat) : u8 (front ++ payload) (front.length + i) = u8 payload i := by
  rw [u8, u8, List.getD_eq_getElem?_getD, List.getD_eq_getElem?_getD, List.getElem?_append_right (Nat.le_add_right _ _),
    Nat.add_sub_cancel_left]

theorem u24_append (front payload : List Byte) (i : Nat) :
    u24 (front ++ payload) (front.length + i) = u24 payload i := by
  simp only [u24_eq, Nat.add_assoc, u8_append]

/-- Three bytes are read as they were sent. -/
theorem u24_be24Nat {n : Nat} (rest : List Byte) (fits : n < 2 ^ 24) : u24 (be24Nat n ++ rest) 0 = n := by
  simp [u24_eq, u8, be24Nat, be24, Nat.shiftRight_eq_div_pow]
  omega

theorem windowBytes_append (ws vs : List Window) : windowBytes (ws ++ vs) = windowBytes ws ++ windowBytes vs :=
  List.flatMap_append

theorem windowBytes_cons (w : Window) (ws : List Window) :
    windowBytes (w :: ws) = be24Nat w.on ++ (be24Nat w.off ++ windowBytes ws) := List.append_assoc _ _ _

/-- R172: six bytes a window. -/
theorem windowBytes_length (ws : List Window) : (windowBytes ws).length = 6 * ws.length := by
  induction ws with
  | nil => rfl
  | cons w rest ih =>
    have six : (windowBytes (w :: rest)).length = 6 + (windowBytes rest).length := by
      rw [windowBytes_cons]; simp [be24Nat, be24]; omega
    rw [six, ih, List.length_cons]; omega

/-- The window that follows `before` in a payload is read back. -/
theorem windowAt_windowBytes (track : Byte) (before after : List Window) {w : Window}
    (fits : w.on < 2 ^ 24 ∧ w.off < 2 ^ 24) :
    windowAt (track :: windowBytes (before ++ w :: after)) before.length = w := by
  have split : track :: windowBytes (before ++ w :: after) =
      (track :: windowBytes before) ++ (be24Nat w.on ++ (be24Nat w.off ++ windowBytes after)) := by
    rw [windowBytes_append, windowBytes_cons, List.cons_append]
  have front : 1 + 6 * before.length = (track :: windowBytes before).length := by
    rw [List.length_cons, windowBytes_length, Nat.add_comm]
  have on : u24 (be24Nat w.on ++ (be24Nat w.off ++ windowBytes after)) 0 = w.on := u24_be24Nat _ fits.1
  have off : u24 (be24Nat w.on ++ (be24Nat w.off ++ windowBytes after)) 3 = w.off :=
    (u24_append (be24Nat w.on) _ 0).trans (u24_be24Nat _ fits.2)
  have second : 4 + 6 * before.length = (track :: windowBytes before).length + 3 := by omega
  rw [windowAt, split, second, u24_append, off, front, ← Nat.add_zero (List.length _), u24_append, on]

/-- R172: a WRITE-WINDOWS payload gives its windows back. -/
theorem windowsOf_windowBytes (track : Byte) {ws : List Window} (fit : ∀ w ∈ ws, w.on < 2 ^ 24 ∧ w.off < 2 ^ 24) :
    windowsOf (track :: windowBytes ws) = ws := by
  have count : ((track :: windowBytes ws).length - 1) / 6 = ws.length := by
    rw [List.length_cons, windowBytes_length]; omega
  refine List.ext_getElem (by rw [windowsOf, List.length_map, List.length_range, count]) fun i _ inside => ?_
  have split : ws.take i ++ ws[i] :: ws.drop (i + 1) = ws := by
    rw [List.getElem_cons_drop, List.take_append_drop]
  have read := windowAt_windowBytes track (ws.take i) (ws.drop (i + 1)) (fit ws[i] (List.getElem_mem inside))
  rw [split, List.length_take_of_le (Nat.le_of_lt inside)] at read
  simpa [windowsOf] using read

theorem u8_trackByte (t : TrackNo) (rest : List Byte) : u8 (byteOf t.val :: rest) 0 = t.val :=
  byteOf_toNat (Nat.lt_trans t.isLt (by decide))

/-- Settles O5: bits and characters of the lines, byte order, codes and lengths by the tables, frames and windows read back. -/
theorem requestFramesAreReadBack : Obligations.RequestFramesAreReadBack := by
  refine ⟨fun d stop => rfl, by decide, readLine_idle, fun n c rest stop => readLine_whole n rest stop,
    fun n k c rest stop => ⟨readLine_heldLow n k stop, readLine_returned n k rest stop⟩,
    fun s p => ⟨fun idle n => txLevel_idle idle n, fun x sending => ?sending⟩, fun s => bitRate_eq s.lineRate,
    fun a b c d => ?fields, by decide,
    fun payload i => ⟨rfl, u16_eq payload i, u24_eq payload i, u32_eq payload i, word16_eq payload i⟩, by decide,
    progress_whole, ofCode_code, fun c r named => code_of_ofCode named, fun r => ?lengths, lengthOk_iff,
    fun x => ?statuses, fun x => ?events, ?choices, fun t ws fit => ⟨windowsOf_windowBytes _ fit, ?track⟩⟩
  case sending =>
    rw [txBits_sending sending]
    exact ⟨readLine_lineBits x.chars, lineBits_length x.chars, fun n => by rw [txLevel_eq, txBits_sending sending]⟩
  case fields =>
    obtain ⟨two, three, four⟩ := fields_sent a b c d
    exact ⟨two, three, four, rfl⟩
  case lengths => cases r <;> rfl
  case statuses => cases x <;> rfl
  case events => cases x <;> rfl
  case choices =>
    exact ⟨rfl, rfl, rfl, rfl, rfl, rfl, rfl, rfl, rfl, rfl, rfl, rfl, fun g c => rfl, rfl, rfl, rfl⟩
  case track => rw [u8_trackByte]; exact trackOfCode_some rfl

end Sys2Proof.Machine
end

section
/-! PROOFS. Refusals before and in the owning block (R157 to R159, R163; Table 9-1): the steps of admission that refuse a frame, and
that a block which refuses a request changes nothing. -/

namespace Sys2Proof.Machine

variable {s : State} {p : Port} {payload : List Byte}

/-! ## Steps 3 to 5 of Table 9-1 -/

theorem isOpen_eq_false_iff : s.isOpen p = false ↔ (s.port p).state ≠ .opened := by simp [State.isOpen]

/-- R158: a port that is not OPEN admits OPEN and IDENTIFY, and while it is EXPIRED also CLOSE. -/
theorem stateAdmits_iff {x : PortState} (notOpen : x ≠ .opened) (r : Request) :
    stateAdmits x (some r) = true ↔ r = .identify ∨ r = .openPort ∨ (r = .closePort ∧ x = .expired) := by
  cases x with
  | opened => exact absurd rfl notOpen
  | expired => simp [stateAdmits, or_left_comm, or_assoc]
  | closed => simp [stateAdmits, or_comm]

/-- A code that names no request needs an OPEN port. -/
theorem stateAdmits_none {x : PortState} (notOpen : x ≠ .opened) : stateAdmits x none = false := by
  cases x with
  | opened => exact absurd rfl notOpen
  | expired | closed => rfl

/-- R158: no code but those of the requests that the port state admits passes at a port that is not OPEN. -/
theorem stateAdmits_ofCode {x : PortState} {code : Byte} (notOpen : x ≠ .opened) (identify : code ≠ Request.code .identify)
    (openPort : code ≠ Request.code .openPort) (closePort : x = .expired → code ≠ Request.code .closePort) :
    stateAdmits x (Request.ofCode code) = false := by
  cases named : Request.ofCode code with
  | none => exact stateAdmits_none notOpen
  | some r =>
    obtain rfl := code_of_ofCode named
    rw [← Bool.not_eq_true, stateAdmits_iff notOpen]
    rintro (rfl | rfl | ⟨rfl, expired⟩)
    · exact identify rfl
    · exact openPort rfl
    · exact closePort expired rfl

theorem ofCode_eq_none {code : Byte} (unnamed : ∀ r : Request, r.code ≠ code) : Request.ofCode code = none := by
  cases named : Request.ofCode code with
  | none => rfl
  | some r => exact absurd (code_of_ofCode named).symm (unnamed r)

theorem admission_notOpen {code : Byte} (barred : stateAdmits (s.port p).state (Request.ofCode code) = false) :
    admission p code payload s = refuse s .notOpen 0 := by
  simp [admission, barred]

theorem admission_unknown {code : Byte} (opened : (s.port p).state = .opened) (unnamed : Request.ofCode code = none) :
    admission p code payload s = refuse s .unknownRequest (code.setWidth 16) := by
  simp [admission, opened, unnamed, stateAdmits]

theorem admission_badLength {r : Request} (admits : stateAdmits (s.port p).state (some r) = true)
    (length : r.lengthOk payload.length = false) : admission p r.code payload s = refuse s .length r.lengthDetail := by
  simp [admission, admits, length]

theorem lengthOk_fixed {r : Request} {n k : Nat} (fixed : r.fixedLength = some n) (other : k ≠ n) :
    r.lengthOk k = false := by
  simp [Request.lengthOk, fixed, other]

theorem lengthDetail_fixed {r : Request} {n : Nat} (fixed : r.fixedLength = some n) :
    r.lengthDetail = BitVec.ofNat 16 n := by
  simp [Request.lengthDetail, fixed]

theorem lengthOk_writeWindows {k : Nat} (other : ∀ n, n ≤ 12 → k ≠ 1 + 6 * n) :
    Request.lengthOk .writeWindows k = false := by
  rw [← Bool.not_eq_true, lengthOk_iff]
  rintro (fixed | ⟨-, n, most, length⟩)
  · exact Option.some_ne_none _ fixed.symm
  · exact other n most length

/-! ## A frame that admission refuses -/

section Refused

variable {seq : Byte} {status : Status} {detail : Word16}

/-- What any fresh frame answers, whether its code names a request or not. -/
theorem exec_unknownRequest_fresh {code : Byte} (hears : Hears s p) (fresh : Fresh s p seq code payload)
    (short : payload.length ≤ 160) :
    exec (.unknownRequest p seq code payload) s =
      .next (finish p seq code (requestCheck seq code payload) (s.isOpen p) (admission p code payload (heard p s)) s.time) := by
  rw [exec_unknownRequest, receiveChars_request p s seq code payload hears short, takeFrame_fresh p s _ _ _ _ fresh]

/-- R163: refused at a port that is not OPEN, a request leaves no record. -/
theorem completes_of_refusedUnrecorded {r : Request} (hears : Hears s p) (fresh : Fresh s p seq r.code payload)
    (short : payload.length ≤ 160) (notOpen : s.isOpen p = false)
    (refused : admission p r.code payload (heard p s) = refuse (heard p s) status detail) :
    Completes s p r seq payload (heard p s) status detail [] := by
  rw [Completes, exec_heard r hears fresh short, refused, notOpen, finish_unrecorded]

/-- R163: refused at an OPEN port, a request is recorded, whichever step of admission refused it. -/
theorem refuses_of_admission {r : Request} (hears : Hears s p) (fresh : Fresh s p seq r.code payload)
    (short : payload.length ≤ 160) (opened : s.isOpen p = true)
    (refused : admission p r.code payload (heard p s) = refuse (heard p s) status detail)
    (refuses : status.refuses = true) : Refuses s p r seq payload status detail := by
  rw [Refuses, Completes, exec_heard r hears fresh short, refused, opened]
  exact congrArg _ (finish_refused _ _ _ _ _ _ _ refuses)

/-- R158: a request that the port state does not admit is refused NOT_OPEN. -/
theorem completes_notOpen {r : Request} (hears : Hears s p) (fresh : Fresh s p seq r.code payload)
    (short : payload.length ≤ 160) (notOpen : s.isOpen p = false)
    (barred : stateAdmits (s.port p).state (Request.ofCode r.code) = false) :
    Completes s p r seq payload (heard p s) .notOpen 0 [] :=
  completes_of_refusedUnrecorded hears fresh short notOpen (admission_notOpen (by rw [heard_state, barred]))

/-- R159: at an OPEN port a request of another length than its own is refused LENGTH. -/
theorem refuses_badLength {r : Request} (hears : Hears s p) (fresh : Fresh s p seq r.code payload)
    (short : payload.length ≤ 160) (opened : s.isOpen p = true) (length : r.lengthOk payload.length = false) :
    Refuses s p r seq payload .length r.lengthDetail := by
  have admits : stateAdmits ((heard p s).port p).state (some r) = true := by rw [heard_state, isOpen_iff.1 opened]; rfl
  exact refuses_of_admission hears fresh short opened (admission_badLength admits length) rfl

end Refused

/-- Settles O23: each clause is one step of admission that refuses, with the recording of the port state. -/
theorem admissionRefusesBeforeAnyBlock : Obligations.AdmissionRefusesBeforeAnyBlock := by
  refine ⟨?notOpen, ?unknown, ?lengthUnrecorded, ?lengthRecorded⟩
  case notOpen =>
    intro s p seq code payload hears short fresh notOpen identify openPort closePort
    have barred := stateAdmits_ofCode (isOpen_eq_false_iff.1 notOpen) identify openPort closePort
    refine ⟨?_, ?_⟩
    · rw [exec_unknownRequest_fresh hears fresh short, admission_notOpen (by rw [heard_state, barred]), notOpen,
        finish_unrecorded]
    · rintro r rfl
      exact completes_notOpen hears fresh short notOpen barred
  case unknown =>
    intro s p seq code payload hears short fresh opened unnamed
    rw [exec_unknownRequest_fresh hears fresh short,
      admission_unknown ((heard_state p s).trans (isOpen_iff.1 opened)) (ofCode_eq_none unnamed), opened]
    exact congrArg _ (finish_refused _ _ _ _ _ _ _ rfl)
  case lengthUnrecorded =>
    intro s p r seq payload n hears short fresh notOpen exempt fixed other
    have admits : stateAdmits ((heard p s).port p).state (some r) = true := by
      rw [heard_state, stateAdmits_iff (isOpen_eq_false_iff.1 notOpen)]
      exact exempt
    rw [← lengthDetail_fixed fixed]
    exact completes_of_refusedUnrecorded hears fresh short notOpen (admission_badLength admits (lengthOk_fixed fixed other))
  case lengthRecorded =>
    intro s p r seq payload hears short fresh opened
    refine ⟨fun n fixed other => ?_, ?_⟩
    · rw [← lengthDetail_fixed fixed]
      exact refuses_badLength hears fresh short opened (lengthOk_fixed fixed other)
    · rintro rfl other
      exact refuses_badLength hears fresh short opened (lengthOk_writeWindows other)

/-! ## A block refuses or carries out (R157) -/

/-- What a block may answer to a request that it was given in state `s`: a refusal, in the state as it was and with nothing to
follow; or an answer, in whatever state, that is no refusal. -/
inductive Reply.AllOrNothing (s : State) : Reply → Prop
  | refused (status : Status) (detail : Word16) : AllOrNothing s (refuse s status detail)
  | answered {y : Reply} (carriedOut : y.status.refuses = false) : AllOrNothing s y

/-- A refusal of such a reply is nothing else. -/
theorem Reply.AllOrNothing.eq_refuse {y : Reply} (h : y.AllOrNothing s) (refuses : y.status.refuses = true) :
    y = refuse s y.status y.detail := by
  cases h with
  | refused => rfl
  | answered carriedOut => exact absurd (carriedOut.symm.trans refuses) Bool.false_ne_true

theorem Reply.AllOrNothing.ok {t : State} {detail : Word16} {out : List Byte} : (replyOk t detail out).AllOrNothing s :=
  .answered rfl

theorem Reply.AllOrNothing.pending {t : State} {detail : Word16} : (replyPending t detail).AllOrNothing s := .answered rfl

theorem Reply.AllOrNothing.range {i : Nat} : (refuseRange s i).AllOrNothing s := .refused _ _

theorem Reply.AllOrNothing.noClaim : (refuseNoClaim s).AllOrNothing s := .refused _ _

theorem Reply.AllOrNothing.noSession : (refuseNoSession s).AllOrNothing s := .refused _ _

theorem Reply.AllOrNothing.busy {o : StoreOp} : (refuseBusy s o).AllOrNothing s := .refused _ _

section Blocks

variable (s : State) (p : Port) (payload : List Byte)

/-! ## The requests of the ports and of the event unit -/

theorem reqOpen_allOrNothing : (reqOpen p payload s).AllOrNothing s := by
  unfold reqOpen
  split
  · exact .ok
  · exact .range

theorem reqClose_allOrNothing : (reqClose p payload s).AllOrNothing s := by
  unfold reqClose
  split
  · exact .answered rfl
  · exact .answered rfl
  · exact .refused _ _

theorem reqReadStatus_allOrNothing : (reqReadStatus p payload s).AllOrNothing s := by
  unfold reqReadStatus
  split
  · exact .range
  · exact .ok

theorem reqClearFault_allOrNothing : (reqClearFault p payload s).AllOrNothing s := by
  unfold reqClearFault
  split
  · split
    · exact .ok
    split
    · exact .ok
    · exact .refused _ _
  · exact .range

theorem reqRestart_allOrNothing : (reqRestart p payload s).AllOrNothing s := by
  unfold reqRestart
  split
  · exact .refused _ _
  split
  · exact .refused _ _
  · exact .ok

theorem reqSubscribe_allOrNothing : (reqSubscribe p payload s).AllOrNothing s := by
  unfold reqSubscribe
  split
  · exact .ok
  · exact .range

theorem reqFetchEvents_allOrNothing : (reqFetchEvents p payload s).AllOrNothing s := by
  simp only [reqFetchEvents]
  split
  · exact .ok
  · exact .range

/-! ## The requests of the axis -/

theorem reqClaimAxis_allOrNothing : (reqClaimAxis p payload s).AllOrNothing s := by
  unfold reqClaimAxis
  split
  · exact .ok
  split
  · exact .ok
  · exact .refused _ _

theorem reqReleaseAxis_allOrNothing : (reqReleaseAxis p payload s).AllOrNothing s := by
  unfold reqReleaseAxis
  split
  · exact .ok
  · exact .noClaim

theorem reqPreset_allOrNothing : (reqPreset p payload s).AllOrNothing s := by
  unfold reqPreset
  split
  · exact .range
  split
  · exact .noClaim
  split
  · exact .refused _ _
  split
  · exact .ok
  · exact .pending

theorem reqCancelPreset_allOrNothing : (reqCancelPreset p payload s).AllOrNothing s := by
  unfold reqCancelPreset
  split
  · exact .noClaim
  split
  · exact .ok
  · exact .refused _ _

theorem reqSetAxis_allOrNothing : (reqSetAxis p payload s).AllOrNothing s := by
  unfold reqSetAxis
  split
  · exact .noClaim
  split
  · exact .range
  split
  · exact .refused _ _
  split
  · exact .refused _ _
  split
  · exact .ok
  · exact .ok

theorem reqClearAxisFault_allOrNothing : (reqClearAxisFault p payload s).AllOrNothing s := by
  unfold reqClearAxisFault
  split
  · exact .range
  split
  · exact .ok
  split
  · exact .ok
  · exact .refused _ _

/-! ## The requests of the tracks -/

theorem reqClaimTracks_allOrNothing : (reqClaimTracks p payload s).AllOrNothing s := by
  simp only [reqClaimTracks]
  split
  · exact .range
  split
  · exact .refused _ _
  split
  · exact .refused _ _
  · exact .ok

theorem reqReleaseTracks_allOrNothing : (reqReleaseTracks p payload s).AllOrNothing s := by
  simp only [reqReleaseTracks]
  split
  · exact .range
  split
  · exact .refused _ _
  · exact .ok

theorem reqSetTrack_allOrNothing : (reqSetTrack p payload s).AllOrNothing s := by
  unfold reqSetTrack
  split
  · exact .range
  split
  · exact .range
  split
  · exact .ok
  · exact .refused _ _

/-! ## The requests of the edit session -/

theorem reqOpenEdit_allOrNothing : (reqOpenEdit p payload s).AllOrNothing s := by
  simp only [reqOpenEdit]
  split
  · exact .range
  split
  · split
    · exact .refused _ _
    · exact .refused _ _
  · exact .ok

theorem reqWriteWindows_allOrNothing : (reqWriteWindows p payload s).AllOrNothing s := by
  simp only [reqWriteWindows]
  split
  · exact .range
  split
  · exact .noSession
  split
  · exact .refused _ _
  split
  · exact .refused _ _
  split
  · exact .refused _ _
  split
  · exact .refused _ _
  · exact .ok

theorem reqReadWindows_allOrNothing : (reqReadWindows p payload s).AllOrNothing s := by
  unfold reqReadWindows
  split
  · exact .range
  split
  · exact .range
  split
  · split
    · exact .noSession
    · exact .ok
  · exact .ok

theorem reqCommit_allOrNothing : (reqCommit p payload s).AllOrNothing s := by
  simp only [reqCommit]
  split
  · exact .range
  split
  · exact .noSession
  split
  · exact .refused _ _
  split
  · exact .refused _ _
  split
  · exact .ok
  · exact .pending

theorem reqAbortEdit_allOrNothing : (reqAbortEdit p payload s).AllOrNothing s := by
  unfold reqAbortEdit
  split
  · exact .range
  split
  · exact .noSession
  split
  · split
    · exact .ok
    · exact .refused _ _
  · exact .ok

/-! ## The requests of the store -/

theorem reqStoreSlot_allOrNothing : (reqStoreSlot p payload s).AllOrNothing s := by
  simp only [reqStoreSlot]
  split
  · exact .range
  split
  · exact .range
  split
  · exact .noClaim
  split
  · exact .busy
  split
  · exact .refused _ _
  · exact .pending

theorem reqEraseSlot_allOrNothing : (reqEraseSlot p payload s).AllOrNothing s := by
  unfold reqEraseSlot
  split
  · exact .range
  split
  · exact .noClaim
  split
  · exact .busy
  · exact .pending

theorem reqLoadSlot_allOrNothing : (reqLoadSlot p payload s).AllOrNothing s := by
  simp only [reqLoadSlot]
  split
  · exact .range
  split
  · exact .noSession
  split
  · exact .refused _ _
  split
  · exact .busy
  split
  · exact .refused _ _
  split
  · exact .refused _ _
  · exact .ok

theorem reqReadSlot_allOrNothing : (reqReadSlot p payload s).AllOrNothing s := by
  unfold reqReadSlot
  split
  · exact .range
  · exact .ok

/-! ## All 28 requests -/

/-- R157: the owning block of each request refuses it and changes nothing, or carries it out. -/
theorem handle_allOrNothing (r : Request) : (handle r p payload s).AllOrNothing s := by
  cases r with
  | identify | readAxis | readTracks => exact .ok
  | openPort => exact reqOpen_allOrNothing s p payload
  | closePort => exact reqClose_allOrNothing s p payload
  | readStatus => exact reqReadStatus_allOrNothing s p payload
  | clearFault => exact reqClearFault_allOrNothing s p payload
  | restart => exact reqRestart_allOrNothing s p payload
  | claimAxis => exact reqClaimAxis_allOrNothing s p payload
  | releaseAxis => exact reqReleaseAxis_allOrNothing s p payload
  | preset => exact reqPreset_allOrNothing s p payload
  | cancelPreset => exact reqCancelPreset_allOrNothing s p payload
  | setAxis => exact reqSetAxis_allOrNothing s p payload
  | clearAxisFault => exact reqClearAxisFault_allOrNothing s p payload
  | claimTracks => exact reqClaimTracks_allOrNothing s p payload
  | releaseTracks => exact reqReleaseTracks_allOrNothing s p payload
  | setTrack => exact reqSetTrack_allOrNothing s p payload
  | openEdit => exact reqOpenEdit_allOrNothing s p payload
  | writeWindows => exact reqWriteWindows_allOrNothing s p payload
  | readWindows => exact reqReadWindows_allOrNothing s p payload
  | commit => exact reqCommit_allOrNothing s p payload
  | abortEdit => exact reqAbortEdit_allOrNothing s p payload
  | storeSlot => exact reqStoreSlot_allOrNothing s p payload
  | eraseSlot => exact reqEraseSlot_allOrNothing s p payload
  | loadSlot => exact reqLoadSlot_allOrNothing s p payload
  | readSlot => exact reqReadSlot_allOrNothing s p payload
  | subscribe => exact reqSubscribe_allOrNothing s p payload
  | fetchEvents => exact reqFetchEvents_allOrNothing s p payload

end Blocks

/-- Settles O24: a reply that refuses is a plain refusal in the state in which the request was heard. -/
theorem refusalChangesNothingElse : Obligations.RefusalChangesNothingElse := by
  intro s p r seq payload accepted refuses
  exact refuses_of accepted ((handle_allOrNothing (heard p s) p payload r).eq_refuse refuses) refuses

end Sys2Proof.Machine
end

section
/-! PROOFS. The answers of the port units (R164 to R167, R174, R175): IDENTIFY, READ-STATUS and CLEAR-FAULT, the cases of each
request, and the statements put together from them. -/

namespace Sys2Proof.Machine

variable {s : State} {p : Port} {payload : List Byte}

/-! ## IDENTIFY (R165, R174) -/

theorem revisionByte_ne_zero : revisionByte ≠ 0 := by
  have counted : revisionByte.toNat = Config.revisionLessOne.val + 1 := byteOf_toNat (by omega)
  intro zero
  rw [zero] at counted
  exact absurd counted.symm (Nat.succ_ne_zero _)

theorem stateAdmits_identify (x : PortState) : stateAdmits x (some .identify) = true := by cases x <;> rfl

/-- Settles O31: IDENTIFY is admitted in every port state, and its block only reads. -/
theorem identifyReportsThePart : Obligations.IdentifyReportsThePart := by
  refine ⟨revisionByte, revisionByte_ne_zero, fun s p seq hears fresh => ?_⟩
  rw [Completes, exec_heard .identify hears fresh (Nat.zero_le 160), admission_handled (stateAdmits_identify _) rfl]
  exact congrArg _ (finish_done (h := rfl) ..)

/-! ## The parts of READ-STATUS (R166, R175) -/

@[simp] theorem be32_length (w : Word32) : (be32 w).length = 4 := rfl

theorem ownPortPart_length (s : State) (p : Port) : (ownPortPart s p).length = 13 := rfl

theorem refusalPart_length (r : PortRec) : (refusalPart r).length = 12 := by
  unfold refusalPart
  cases r.refusal <;> rfl

theorem allPortsPart_length (s : State) : (allPortsPart s).length = 12 := rfl

theorem sessionPart_length (s : State) : (sessionPart s).length = 2 := by
  unfold sessionPart
  cases s.session <;> rfl

/-- R166: the pending commit of the session that the port holds. -/
def ownPending (s : State) (p : Port) : Option PendingCommit :=
  s.session.bind fun e => if e.holder = p then e.pending else none

/-- R175: what READ-STATUS reports of a pending commit, or of none. -/
def pendingBytes (s : State) : Option PendingCommit → List Byte
  | none => List.replicate 10 0
  | some pc => [1, pc.condition.code] ++ be24Nat pc.position ++ [pc.direction.code] ++ be16 pc.tag ++ be16 (timeLeft s pc)

/-- A pending commit is reported to its holder only. -/
theorem commitPart_eq (s : State) (p : Port) : commitPart s p = pendingBytes s (ownPending s p) := by
  unfold commitPart ownPending
  rcases s.session with _ | ⟨holder, shadow, pending⟩
  · rfl
  · rcases pending with _ | pc
    · simp only [Option.bind_some, ite_self]; rfl
    · by_cases held : holder = p
      · simp only [Option.bind_some, if_pos held]; rfl
      · simp only [Option.bind_some, if_neg held]; rfl

theorem pendingBytes_length (s : State) (pending : Option PendingCommit) : (pendingBytes s pending).length = 10 := by
  cases pending <;> rfl

theorem storePart_length (s : State) : (storePart s).length = 3 := by
  unfold storePart
  cases s.store.op <;> rfl

theorem bootPart_length (s : State) : (bootPart s).length = 5 := by
  unfold bootPart
  cases s.store.boot <;> rfl

/-- R175: 62 bytes. -/
theorem statusPayload_length (s : State) (p : Port) : (statusPayload s p).length = 62 := by
  simp [statusPayload, commitPart_eq, ownPortPart_length, refusalPart_length, allPortsPart_length, sessionPart_length,
    pendingBytes_length, storePart_length, bootPart_length]

/-- R166: the time left, by the time that has passed since the commit was accepted. -/
theorem timeLeft_eq (s : State) (pc : PendingCommit) :
    timeLeft s pc =
      if pc.deadline.isNone then 0xFFFF else BitVec.ofNat 16 ((1000 * pc.timeout - (s.time - pc.accepted).toNat) / 1000) := by
  unfold timeLeft
  cases pc.deadline with
  | none => rfl
  | some deadline => rw [Nat.mul_comm 1000]; rfl

/-! ## READ-STATUS as it is heard -/

theorem heard_tag (p : Port) (s : State) (q : Port) : ((heard p s).port q).tag = (s.port q).tag := by
  rw [heard, port_setPort]
  split
  · next same => rw [same]
  · rfl

theorem heard_stateAt (p : Port) (s : State) (q : Port) : ((heard p s).port q).state = (s.port q).state := by
  rw [heard, port_setPort]
  split
  · next same => rw [same]
  · rfl

theorem heard_allPortsPart (p : Port) (s : State) : allPortsPart (heard p s) = allPortsPart s := by
  simp only [allPortsPart, heard_stateAt, heard_tag]

theorem heard_ownPortPart (p : Port) (s : State) : ownPortPart (heard p s) p = ownPortPart s p := by
  simp only [ownPortPart, heard, port_setPort_same]

theorem heard_refusal (p : Port) (s : State) : ((heard p s).port p).refusal = (s.port p).refusal := by
  rw [heard, port_setPort_same]

theorem heard_refusals (p : Port) (s : State) : ((heard p s).port p).refusals = (s.port p).refusals := by
  rw [heard, port_setPort_same]

/-- A request that is heard changes nothing that READ-STATUS reports. -/
theorem heard_statusPayload (p : Port) (s : State) : statusPayload (heard p s) p = statusPayload s p := by
  simp only [statusPayload, heard_ownPortPart, heard_allPortsPart, refusalPart, heard_refusal, heard_refusals]
  rfl

theorem reqReadStatus_outOfRange (option : 1 < u8 payload 0) : reqReadStatus p payload s = refuse s .range 0 := by
  simp only [reqReadStatus, boolOfCode_none option]
  rfl

/-- Option KEEP. -/
theorem reqReadStatus_keep (option : u8 payload 0 = 0) :
    reqReadStatus p payload s = replyOk { s with choices := s.choices + 1 } 0 (statusPayload s p) := by
  rw [reqReadStatus, option]
  rfl

/-- Option CLEAR: the report is of the counters as they stood. -/
theorem reqReadStatus_clear (option : u8 payload 0 = 1) :
    reqReadStatus p payload s =
      replyOk
        (State.setPort { s with choices := s.choices + 1 } p
          { s.port p with checkErrors := 0, frameErrors := 0, overruns := 0, replays := 0 })
        0 (statusPayload s p) := by
  rw [reqReadStatus, option]
  rfl

/-- Settles O34: the report part by part, the free bytes those that the part chooses (log 11), and the three options. -/
theorem readStatusReportsAndClears : Obligations.ReadStatusReportsAndClears := by
  intro s p seq payload accepted
  refine ⟨Config.idleStoreSlotByte s.choices, Config.noBootGeneration s.choices, s.choices + 1, ?_⟩
  intro r out
  have report : out = statusPayload s p := by
    simp only [statusPayload, commitPart_eq, pendingBytes, ownPending, timeLeft_eq]
    rfl
  rw [report]
  refine ⟨statusPayload_length s p, fun keep => ?_, fun clear => ?_, fun option => ?_⟩
  · refine completes_of accepted ?_ rfl
    rw [← heard_statusPayload]
    exact reqReadStatus_keep keep
  · refine completes_of accepted ?_ rfl
    rw [← heard_statusPayload]
    exact reqReadStatus_clear clear
  · exact refuses_of accepted (reqReadStatus_outOfRange option) rfl

/-! ## CLEAR-FAULT (R164) -/

theorem isRefusalCode_iff {n : Nat} : isRefusalCode n = true ↔ 2 ≤ n ∧ n ≤ 17 := by simp [isRefusalCode]

theorem reqClearFault_noRefusal (outside : ¬ isRefusalCode (u8 payload 0) = true) :
    reqClearFault p payload s = refuse s .range 0 := if_neg outside

theorem reqClearFault_noRecord (code : isRefusalCode (u8 payload 0) = true) (empty : (s.port p).refusal = none) :
    reqClearFault p payload s = replyOk s := by
  simp only [reqClearFault, code, empty, if_true]

theorem reqClearFault_recorded {x : Refused} (code : isRefusalCode (u8 payload 0) = true)
    (held : (s.port p).refusal = some x) (named : x.status.code.toNat = u8 payload 0) :
    reqClearFault p payload s =
      replyOk (s.setPort p { s.port p with refusal := none, refusals := 0 }) (s.port p).refusals := by
  simp only [reqClearFault, code, held, named, if_true]

theorem reqClearFault_otherStatus {x : Refused} (code : isRefusalCode (u8 payload 0) = true)
    (held : (s.port p).refusal = some x) (other : x.status.code.toNat ≠ u8 payload 0) :
    reqClearFault p payload s = refuse s .stale (x.status.code.setWidth 16) := by
  simp only [reqClearFault, code, held, if_true, if_neg other]

/-- Settles O35: at a port that is not OPEN admission refuses; at an OPEN one the code is judged, then compared with the record's. -/
theorem clearFaultNamesTheRecordedStatus : Obligations.ClearFaultNamesTheRecordedStatus := by
  refine ⟨?notOpen, ?accepted⟩
  case notOpen =>
    intro s p seq payload hears fresh short notOpen
    refine completes_notOpen hears fresh short notOpen ?_
    exact stateAdmits_ofCode (isOpen_eq_false_iff.1 notOpen) (by decide) (by decide) fun _ => by decide
  case accepted =>
    intro s p seq payload accepted
    refine ⟨fun outside => ?range, fun low high => ?known⟩
    case range =>
      have noRefusal : ¬ isRefusalCode (u8 payload 0) = true := by rw [isRefusalCode_iff]; omega
      exact refuses_of accepted (reqClearFault_noRefusal noRefusal) rfl
    case known =>
      have code := isRefusalCode_iff.2 ⟨low, high⟩
      have record := heard_refusal p s
      refine ⟨fun empty => ?_, fun x held named => ?_, fun x held other => ?_⟩
      · exact completes_of accepted (reqClearFault_noRecord code (record.trans empty)) rfl
      · rw [← heard_refusals]
        exact completes_of accepted (reqClearFault_recorded code (record.trans held) named) rfl
      · exact refuses_of accepted (reqClearFault_otherStatus code (record.trans held) other) rfl

end Sys2Proof.Machine
end

section
/-! PROOFS. The check value (R171): a byte that repeats the register's high byte leaves the low byte shifted up, so that bytes
followed by their check value end at 0; and the statement put together from that and the formats. -/

namespace Sys2Proof.Machine

/-! ## The register -/

theorem crcBit_msb_zero {r : Word16} (zero : r.msb = false) : crcBit r = r <<< 1 := by
  rw [crcBit, if_neg (Bool.eq_false_iff.1 zero)]

/-- While no bit leaves the register at its high end, the polynomial is never applied and the register only shifts. -/
theorem repeat_crcBit_shift (r : Word16) (n : Nat) (fits : r.toNat * 2 ^ n < 2 ^ 16) :
    Nat.repeat crcBit n r = r <<< n := by
  induction n with
  | zero => exact (BitVec.shiftLeft_zero r).symm
  | succ n ih =>
    have half : r.toNat * 2 ^ n * 2 < 2 ^ 16 := by rwa [Nat.mul_assoc, ← Nat.pow_succ]
    have msb : (r <<< n).msb = false := by
      rw [BitVec.msb_eq_false_iff_two_mul_lt, BitVec.toNat_shiftLeft, Nat.shiftLeft_eq, Nat.mod_eq_of_lt (by omega)]
      omega
    calc Nat.repeat crcBit (n + 1) r = crcBit (r <<< n) := by rw [Nat.repeat, ih (by omega)]
      _ = r <<< (n + 1) := by rw [crcBit_msb_zero msb, BitVec.shiftLeft_add]

/-- The high byte of a word, taken out of it, leaves the low byte. -/
theorem xor_highByte (r : Word16) : r ^^^ ((r.extractLsb' 8 8).setWidth 16 <<< 8) = (r.extractLsb' 0 8).setWidth 16 := by
  ext i inside
  by_cases low : i < 8
  · simp [low, BitVec.getLsbD_eq_getElem inside]
  · have sameBit : 8 + (i - 8) = i := by omega
    have inByte : i - 8 < 8 := by omega
    simp [low, sameBit, inByte, inside]

/-- Shifted up by eight bits, a word keeps its low byte. -/
theorem lowByte_shift (r : Word16) : (r.extractLsb' 0 8).setWidth 16 <<< 8 = r <<< 8 := by
  ext i inside
  by_cases low : i < 8
  · simp [low]
  · have inByte : i - 8 < 8 := by omega
    have inWord : i - 8 < 16 := by omega
    simp [low, inByte, BitVec.getLsbD_eq_getElem inWord]

/-- A byte that equals the register's high byte cancels it, and no bit set leaves at the high end. -/
theorem crcByte_highByte (r : Word16) : crcByte r (r.extractLsb' 8 8) = r <<< 8 := by
  have fits : ((r.extractLsb' 0 8).setWidth 16).toNat * 2 ^ 8 < 2 ^ 16 := by
    have byte := (r.extractLsb' 0 8).isLt
    rw [BitVec.toNat_setWidth]; omega
  rw [crcByte, xor_highByte, repeat_crcBit_shift _ 8 fits, lowByte_shift]

/-- The low byte that is left then cancels with itself. -/
theorem crcByte_lowByte (r : Word16) : crcByte (r <<< 8) (r.extractLsb' 0 8) = 0 := by
  calc crcByte (r <<< 8) (r.extractLsb' 0 8)
      = Nat.repeat crcBit 8 0 := by rw [crcByte, lowByte_shift, BitVec.xor_self]; rfl
    _ = 0 := repeat_crcBit_shift 0 8 (by decide)

/-- R171: the register ends at 0 over bytes that are followed by their check value. -/
theorem crc_residue (bytes : List Byte) : crc (bytes ++ be16 (crc bytes)) = 0 := by
  calc crc (bytes ++ be16 (crc bytes))
      = crcByte (crcByte (crc bytes) ((crc bytes).extractLsb' 8 8)) ((crc bytes).extractLsb' 0 8) := List.foldl_append
    _ = 0 := by rw [crcByte_highByte, crcByte_lowByte]

/-! ## What it covers and where it is used -/

theorem requestCheck_eq (seq code : Byte) (payload : List Byte) :
    requestCheck seq code payload = crc ([seq, code, byteOf payload.length] ++ payload) := rfl

section
variable {s : State} {p : Port} {seq code : Byte} {payload : List Byte} {check : Word16}

theorem judgeFrame_valid (own : check = requestCheck seq code payload) :
    judgeFrame p seq code payload check s = takeFrame p seq code payload check (s.setPhase p .hunting) := if_pos own

theorem judgeFrame_checkError (wrong : check ≠ requestCheck seq code payload) :
    judgeFrame p seq code payload check s =
      s.setPort p { s.port p with checkErrors := satInc (s.port p).checkErrors, phase := .hunting } := if_neg wrong

end

/-- Settles O4: the CRC by its definition and on the check string, the residue, the bytes that frames cover, and the check value
in the judgement of a request and in the retry cache. -/
theorem checkValueIsTheCrcOfR171 : Obligations.CheckValueIsTheCrcOfR171 := by
  refine ⟨fun bytes => rfl, fun r b => rfl, fun r => rfl, by decide +kernel, crc_residue, fun seq code payload => ?request,
    fun x => ?response, fun x => ?covered, fun p seq code payload check s => ⟨judgeFrame_valid, judgeFrame_checkError⟩,
    fun p check x s => rfl⟩
  case request => rw [requestChars, frameChars, requestCheck_eq]; rfl
  case response => rfl
  case covered => rfl

end Sys2Proof.Machine
end

section
/-! PROOFS. The reads of the axis and of the tracks (R168, R169, R176, R177): both answer from the state as it stands; the
sixteen entries of READ-TRACKS lie one behind the other, 7 bytes each. -/

namespace Sys2Proof.Machine

/-! ## READ-AXIS (R168, R176) -/

theorem reqReadAxis_heard (p : Port) (s : State) :
    reqReadAxis p [] (heard p s) = replyOk (heard p s) 0 (axisPayload s) := rfl

/-! ## READ-TRACKS (R169, R177) -/

/-- Among entries of one length, entry `i` lies behind `i` entries. -/
theorem flatMap_entry {α : Type} {f : α → List Byte} {n : Nat} (width : ∀ x, (f x).length = n) (xs : List α) {i : Nat}
    (inside : i < xs.length) : ((xs.flatMap f).drop (n * i)).take n = f xs[i] := by
  induction xs generalizing i with
  | nil => exact absurd inside (Nat.not_lt_zero i)
  | cons x rest ih =>
    rw [List.flatMap_cons]
    cases i with
    | zero => exact List.take_left' (width x)
    | succ i =>
      have behind : n * (i + 1) = (f x).length + n * i := by rw [width, Nat.mul_succ, Nat.add_comm]
      rw [behind, List.drop_length_add_append]
      exact ih (Nat.lt_of_succ_lt_succ inside)

theorem trackEntry_length (t : Track) : (trackEntry t).length = 7 := rfl

/-- R177: 112 bytes. -/
theorem tracksPayload_length (s : State) : (tracksPayload s).length = 112 := by
  simp [tracksPayload, List.length_flatMap, trackEntry_length, Table.numbers]

/-- R177: T0 to T15 in order. -/
theorem tracksPayload_entry (s : State) (t : TrackNo) :
    ((tracksPayload s).drop (7 * t.val)).take 7 = trackEntry (s.track t) := by
  have inside : t.val < (Table.numbers 16).length := by simp [Table.numbers]
  have number : (Table.numbers 16)[t.val] = t := by simp [Table.numbers]
  rw [tracksPayload, flatMap_entry (fun u => trackEntry_length (s.track u)) _ inside, number]

theorem reqReadTracks_heard (p : Port) (s : State) :
    reqReadTracks p [] (heard p s) = replyOk (heard p s) 0 (tracksPayload s) := rfl

/-- Settles O42: both requests answer in the state in which they are heard; the parts of the axis report are the
fields of R176 in their order, and the report of the tracks is read entry by entry. -/
theorem readAxisAndReadTracksReport : Obligations.ReadAxisAndReadTracksReport := by
  intro s p seq
  refine ⟨fun accepted => ?axis, fun accepted => ⟨tracksPayload s, ?tracks, tracksPayload_length s, fun t => ?entry⟩⟩
  case axis => exact completes_of accepted (reqReadAxis_heard p s) rfl
  case tracks => exact completes_of accepted (reqReadTracks_heard p s) rfl
  case entry => rw [tracksPayload_entry]; rfl

end Sys2Proof.Machine
end

section
/-! PROOFS. The queue of commands (00_scope 4.5, 95): a step takes its front command, every command answers a next state (log 26),
and no command touches what waits, since no shared operation does. -/

namespace Sys2Proof.Machine

variable {s : State}

/-! ## The front of the queue (log 5) -/

theorem stepQueue_cons {c : Instr} {rest : List Instr} (queue : s.pending = c :: rest) :
    stepQueue s = exec c { s with pending := rest } := by
  rw [stepQueue, queue]

/-- Settles O1: a step is one of the queue, and the queue has a front. -/
theorem stepTakesTheFrontCommand : Obligations.StepTakesTheFrontCommand := fun _ _ _ queue => stepQueue_cons queue

/-! ## No request touches the queue -/

/-- The requests that answer in the state as it stands, or write some records of it outright. The others go through shared
operations of the axis, the tracks, the edit unit and the event unit. -/
def Request.writesOutright : Request → Bool
  | .claimAxis | .releaseAxis | .preset | .cancelPreset | .setAxis | .claimTracks | .releaseTracks | .setTrack | .commit
  | .abortEdit => false
  | _ => true

theorem handle_keepsQueue_of_writesOutright {r : Request} (own : r.writesOutright = true) (p : Port) (payload : List Byte)
    (s : State) : (handle r p payload s).state.pending = s.pending := by
  cases r <;> simp only [handle]
  case claimAxis | releaseAxis | preset | cancelPreset | setAxis | claimTracks | releaseTracks | setTrack | commit
    | abortEdit => exact absurd own (by decide)
  case identify | readAxis | readTracks => rfl
  case openPort => unfold reqOpen; split <;> rfl
  case closePort => unfold reqClose; split <;> rfl
  case readStatus => unfold reqReadStatus; simp only []; (repeat' split) <;> rfl
  case clearFault => unfold reqClearFault; (repeat' split) <;> rfl
  case restart => unfold reqRestart; (repeat' split) <;> rfl
  case clearAxisFault => unfold reqClearAxisFault; (repeat' split) <;> rfl
  case openEdit => unfold reqOpenEdit; simp only []; (repeat' split) <;> rfl
  case writeWindows => unfold reqWriteWindows; simp only []; (repeat' split) <;> rfl
  case readWindows => unfold reqReadWindows; (repeat' split) <;> rfl
  case storeSlot => unfold reqStoreSlot; simp only []; (repeat' split) <;> rfl
  case eraseSlot => unfold reqEraseSlot; (repeat' split) <;> rfl
  case loadSlot => unfold reqLoadSlot; simp only []; (repeat' split) <;> rfl
  case readSlot => unfold reqReadSlot; split <;> rfl
  case subscribe => unfold reqSubscribe; split <;> rfl
  case fetchEvents => unfold reqFetchEvents; simp only []; split <;> rfl

variable (p : Port) (payload : List Byte) (s : State)

theorem reqClaimAxis_keepsQueue : (reqClaimAxis p payload s).state.pending = s.pending := by
  unfold reqClaimAxis
  split
  · exact produce_pending _ _
  split
  · rfl
  · rfl

theorem reqReleaseAxis_keepsQueue : (reqReleaseAxis p payload s).state.pending = s.pending := by
  unfold reqReleaseAxis
  split
  · exact (freeAxis_pending _ p 1).trans (withdrawPreset_pending s 1)
  · rfl

theorem reqPreset_keepsQueue : (reqPreset p payload s).state.pending = s.pending := by
  unfold reqPreset
  split
  · rfl
  split
  · rfl
  split
  · rfl
  split
  · exact placePosition_pending s _ _ p _
  · rfl

theorem reqCancelPreset_keepsQueue : (reqCancelPreset p payload s).state.pending = s.pending := by
  unfold reqCancelPreset
  split
  · rfl
  split
  · exact withdrawPreset_pending s 0
  · rfl

theorem reqSetAxis_keepsQueue : (reqSetAxis p payload s).state.pending = s.pending := by
  unfold reqSetAxis
  split
  · rfl
  split
  · rfl
  split
  · rfl
  split
  · rfl
  split
  · exact setLimits_pending s _
  · exact changeGeometry_pending s _

theorem reqClaimTracks_keepsQueue : (reqClaimTracks p payload s).state.pending = s.pending := by
  simp only [reqClaimTracks]
  split
  · rfl
  split
  · rfl
  split
  · rfl
  · exact produceIf_pending _ _ _

theorem reqReleaseTracks_keepsQueue : (reqReleaseTracks p payload s).state.pending = s.pending := by
  simp only [reqReleaseTracks]
  split
  · rfl
  split
  · rfl
  · exact freeTracks_pending s _ p 1

theorem reqSetTrack_keepsQueue : (reqSetTrack p payload s).state.pending = s.pending := by
  unfold reqSetTrack
  split
  · rfl
  split
  · rfl
  split
  · exact reevaluate_pending _ _ _
  · rfl

theorem reqCommit_keepsQueue : (reqCommit p payload s).state.pending = s.pending := by
  simp only [reqCommit]
  split
  · rfl
  split
  · rfl
  split
  · rfl
  split
  · rfl
  split
  · exact swapWith_pending s _ _
  · rfl

theorem reqAbortEdit_keepsQueue : (reqAbortEdit p payload s).state.pending = s.pending := by
  unfold reqAbortEdit
  split
  · rfl
  split
  · rfl
  split
  · split
    · exact withdrawCommit_pending s 1
    · rfl
  · exact endSession_pending s

theorem handle_keepsQueue (r : Request) : (handle r p payload s).state.pending = s.pending := by
  by_cases own : r.writesOutright = true
  · exact handle_keepsQueue_of_writesOutright own p payload s
  · cases r <;> simp only [Request.writesOutright, not_true_eq_false] at own
    case claimAxis => exact reqClaimAxis_keepsQueue p payload s
    case releaseAxis => exact reqReleaseAxis_keepsQueue p payload s
    case preset => exact reqPreset_keepsQueue p payload s
    case cancelPreset => exact reqCancelPreset_keepsQueue p payload s
    case setAxis => exact reqSetAxis_keepsQueue p payload s
    case claimTracks => exact reqClaimTracks_keepsQueue p payload s
    case releaseTracks => exact reqReleaseTracks_keepsQueue p payload s
    case setTrack => exact reqSetTrack_keepsQueue p payload s
    case commit => exact reqCommit_keepsQueue p payload s
    case abortEdit => exact reqAbortEdit_keepsQueue p payload s

/-! ## Neither reset, nor load, nor output touches it -/

@[simp] theorem deviceReset_pending : (deviceReset s).pending = s.pending := rfl

@[simp] theorem beginLoad_pending (straps : BitVec 2) : (beginLoad straps s).pending = s.pending := rfl

@[simp] theorem endLoad_pending : (endLoad s).pending = s.pending := by
  unfold endLoad
  cases bootImage s with
  | none => simp
  | some g => simp [applyImage]

@[simp] theorem changeOe_pending (level : Bool) : (changeOe level s).pending = s.pending := by
  unfold changeOe
  split
  · rfl
  split
  · simp
  · rfl

/-! ## Every command (log 26) -/

/-- Whatever waits, every shared operation leaves it waiting. -/
theorem queueKept (queue : List Instr) : Kept fun s => s.pending = queue where
  port _ _ _ _ _ := id
  request r p payload s _ _ _ := (handle_keepsQueue p payload s r).trans
  reset p c s _ := (portReset_pending s p c).trans
  close _ _ _ := id
  device s := (deviceReset_pending s).trans
  load straps s _ := (beginLoad_pending s straps).trans
  loaded s _ := (endLoad_pending s).trans
  count a b s _ := (sampleCount_pending s a b).trans
  index i s _ := (sampleIndex_pending s i).trans
  fail l s := (receiversFail_pending s l).trans
  heal l s := (receiversHeal_pending s l).trans
  restore s _ := (restoreSignal_pending s).trans
  period s _ := (closeSamplePeriod_pending s).trans
  deadline s _ := (withdrawCommit_pending s 0).trans
  stored b s := (completeStore_pending s b).trans
  erased s := (completeErase_pending s).trans
  outputs l s := (changeOe_pending s l).trans

/-- Every arm of `exec` gives its command a meaning, and each such meaning is a next state. -/
theorem exec_answers (c : Instr) : ∃ t, exec c s = .next t := by
  cases c <;> exact ⟨_, rfl⟩

theorem exec_keepsQueue {c : Instr} {t : State} (answers : exec c s = .next t) : t.pending = s.pending :=
  (queueKept s.pending).exec rfl answers

/-- Settles O3: every command answers, and the shared operations that it is made of leave the queue. -/
theorem everyCommandAnswersANextState : Obligations.EveryCommandAnswersANextState := by
  intro c s
  obtain ⟨t, answers⟩ := exec_answers s c
  exact ⟨t, answers, exec_keepsQueue s answers⟩

end Sys2Proof.Machine
end

section
/-! PROOFS. The state after device reset (Tables 1-1, 2-1, 4-1, 5-1, 7-1, 8-1): the laws of the part hold in it, each because
nothing is in service, held, queued, stored or pending there. -/

namespace Sys2Proof.Machine

theorem reset_outOfService : State.reset.inService = false := rfl

theorem reset_portClosed (p : Port) : State.reset.isOpen p = false := by rw [State.isOpen, reset_port]; rfl

/-! ## The laws, one by one -/

theorem bootLaw_reset : bootLaw State.reset := fun _ =>
  ⟨fun p => by rw [reset_port]; rfl, rfl, rfl, rfl, rfl, rfl, rfl, rfl, rfl, rfl, rfl, fun t => by
    rw [reset_track]
    exact ⟨rfl, rfl, rfl⟩⟩

/-- Levels, pins and shifts: the invariant of every step begins here. -/
theorem outputsKept_reset : OutputsKept State.reset :=
  ⟨bootLaw_reset, fun service => absurd (reset_outOfService.symm.trans service) Bool.false_ne_true⟩

theorem referenceLaw_reset : referenceLaw State.reset := fun present => absurd present Bool.false_ne_true

theorem mailLaw_reset : mailLaw State.reset := mailLaw_iff.2 fun p => by
  rw [reset_box]
  exact bounded_reset

/-- Nobody holds anything; every port is CLOSED, with an empty box and the end cause of a device reset. -/
theorem holdersLaw_reset : holdersLaw State.reset := by
  refine ⟨fun p claimed => ?claim, fun a armed => ?armed, fun t p owned => ?owner, fun e session => ?session,
    fun o p busy => ?store, fun p _ => reset_box p, fun p => ?cause⟩
  case claim => cases claimed
  case armed => cases armed
  case owner =>
    rw [reset_track] at owned
    cases owned
  case session => cases session
  case store => cases busy
  case cause =>
    rw [reset_portClosed, reset_port]
    decide

/-- R49: sixteen empty lists are valid on every ring. -/
theorem bankLaw_empty (m : Nat) : bankLaw m Bank.empty := by
  refine ⟨fun t => ?valid, ?pool⟩
  case valid =>
    have list : Bank.empty.list t = [] := reset_list t
    rw [list, checkList_nil]
  case pool =>
    rw [bankEmpty_total]
    decide

theorem ringLaw_reset : ringLaw State.reset := by
  refine ⟨by decide, by decide, fun r present => ?reference, fun a armed => ?armed, bankLaw_empty _,
    fun e session => ?session, fun i g valid => ?slot⟩
  case reference => cases present
  case armed => cases armed
  case session => cases session
  case slot =>
    rw [reset_slot] at valid
    cases valid

/-- Every slot is EMPTY (log 1) and the store is IDLE. -/
theorem storeLaw_reset : storeLaw State.reset := by
  refine storeLaw_of_idle rfl (fun i => ?atRest) fun i j g h validI _ => ?distinct
  case atRest => rw [reset_slot]; rfl
  case distinct =>
    rw [reset_slot] at validI
    cases validI

theorem commitLaw_reset : commitLaw State.reset := commitLaw_of_noCommit rfl

/-! ## The defaults and the laws -/

/-- Settles O10: the records of the tables are read one by one, and each law has its lemma. -/
theorem resetLeavesTheDefaults : Obligations.ResetLeavesTheDefaults := by
  obtain ⟨boot, pins, levels, shifts⟩ := outputsKept_iff.1 outputsKept_reset
  refine ⟨rfl, ?counter, ?monitor, ⟨reset_list, rfl, rfl⟩, reset_track, rfl, reset_box, fun p => ?port,
    boot, pins, levels, shifts, referenceLaw_reset, mailLaw_reset, holdersLaw_reset, ringLaw_reset, storeLaw_reset,
    commitLaw_reset⟩
  case counter => decide
  case monitor => decide
  case port =>
    rw [reset_port]
    decide

end Sys2Proof.Machine
end

section
/-! PROOFS. What the encoder, the monitor and the edit unit do, in parts: every operation of theirs is put together from a few
changes of one block and the filing of events, so a property that survives these survives the operation. -/

namespace Sys2Proof.Machine

variable {P : State → Prop} {s : State}

/-- The property survives each change of one block that the encoder, the monitor, the edit unit and the track unit make, except
that a track gets no new owner, a session no new contents, and the store is not written. -/
structure KeptByParts (P : State → Prop) : Prop where
  file : ∀ ev s, P s → P (produce ev s)
  choice : ∀ s, P s → P s.advanceChoices
  monitor : ∀ m s, P s → P (s.setMonitor m)
  outputs : ∀ l s, P s → P (s.setOe l)
  track : ∀ i x s, x.owner = (s.track i).owner → P s → P (s.setTrack i x)
  tracks : ∀ (f : TrackNo → Track) s, (∀ i, (f i).owner = (s.track i).owner ∨ (f i).owner = none) → P s →
    P (s.setTracks (Table.build f))
  lines : ∀ a b i x y s, P s →
    P (s.setCounter { s.counter with lineA := a, lineB := b, lineIndex := i, resyncCount := x, resyncIndex := y })
  move : ∀ d s, P s → P (s.setCounter (s.counter.move d))
  mark : ∀ s, s.counter.ref = .referenced → P s → P (s.setCounter { s.counter with r := some s.counter.p })
  lower : ∀ s, P s → P (s.setCounter { s.counter with ref := .faulted, r := none })
  disarm : ∀ s, P s → P (s.setCounter { s.counter with armed := none })
  place : ∀ v r s, (v < s.counter.modulus ∨ ∃ a, s.counter.armed = some a ∧ a.value = v) → (∀ x, r = some x → x = v) →
    P s → P (s.setCounter { s.counter with p := v, turns := 0, ref := .referenced, r := r, armed := none })
  swap : ∀ e tag s, s.session = some e → P s →
    P ((s.setActive { lists := e.shadow.lists, tag := tag }).setSession none)
  leave : ∀ s, P s → P (s.setSession none)
  resume : ∀ e s, s.session = some e → P s → P (s.setSession (some { e with pending := none }))

namespace KeptByParts

variable (k : KeptByParts P)
include k

/-! ## Tracks and outputs -/

theorem reevaluate (c : EdgeCause) (ts : List TrackNo) (h : P s) : P (reevaluate c ts s) := by
  have evaluated (s : State) (i : TrackNo) (h : P s) : P (evalTrack c s i) := by
    unfold evalTrack
    split
    · exact h
    · exact k.file _ _ (k.track i { s.track i with level := s.levelOf i, pin := s.levelOf i && s.oe } s rfl h)
  induction ts generalizing s with
  | nil => rwa [reevaluate_nil]
  | cons i ts ih =>
    rw [reevaluate_cons]
    exact ih (evaluated s i h)

theorem reevaluateAll (c : EdgeCause) (h : P s) : P (reevaluateAll c s) := k.reevaluate c _ h

theorem recomputeShifts (h : P s) : P (recomputeShifts s) := k.tracks _ s (fun _ => .inl rfl) h

/-- R64, R65: freed tracks have no owner, the others keep theirs. -/
theorem freeTracks (f : TrackNo → Bool) (p : Port) (cause : Byte) (h : P s) : P (freeTracks f p cause s) := by
  refine k.reevaluate _ _ (k.file _ _ (k.tracks _ s (fun i => ?_) h))
  split
  · exact .inr rfl
  · exact .inl rfl

theorem changeOe (level : Bool) (h : P s) : P (changeOe level s) := by
  unfold Machine.changeOe
  split
  · exact h
  split
  · exact k.file _ _ (k.tracks _ (s.setOe level) (fun _ => .inl rfl) (k.outputs level s h))
  · exact k.outputs level s h

/-! ## The edit unit -/

theorem swapWith {e : EditSession} (tag : Word16) (session : s.session = some e) (h : P s) : P (swapWith e tag s) :=
  k.reevaluateAll _ (k.file _ _ (k.swap e tag s session h))

theorem swapPending (h : P s) : P (swapPending s) := by
  unfold Machine.swapPending
  split
  · exact h
  next session =>
  split
  · exact h
  · exact k.swapWith _ session h

theorem editAtIndex (h : P s) : P (editAtIndex s) := by
  unfold Machine.editAtIndex
  split
  · exact k.swapPending h
  · exact h

theorem editAtPeriodEnd (h : P s) : P (editAtPeriodEnd s) := by
  unfold Machine.editAtPeriodEnd
  split
  · exact k.swapPending h
  · exact h

theorem withdrawCommit (cause : Byte) (h : P s) : P (withdrawCommit cause s) := by
  unfold Machine.withdrawCommit
  split
  · exact h
  next e session =>
  split
  · exact h
  · exact k.file _ _ (k.resume e s session h)

theorem endSession (h : P s) : P (endSession s) := by
  unfold Machine.endSession
  split
  · exact h
  split
  · exact k.leave s h
  · exact k.file _ _ (k.leave s h)

/-! ## The counter -/

theorem takeArrival (d : Dir) (h : P s) : P (takeArrival d s) := by
  have moved : P (stepPosition d s) := k.monitor _ _ (k.move d s h)
  have chosen : P (stepPosition d s).advanceChoices := k.choice _ moved
  simp only [Machine.takeArrival]
  split
  · split
    · exact k.swapPending (k.reevaluateAll _ chosen)
    · exact k.reevaluateAll _ (k.swapPending chosen)
  · exact k.reevaluateAll _ moved

theorem noteFault (kind : FaultKind) (detail : Word24) (h : P s) : P (noteFault kind detail s) :=
  k.file _ _ (k.monitor _ _ h)

theorem lowerReference (kind : FaultKind) (h : P s) : P (lowerReference kind s) := k.file _ _ (k.lower s h)

theorem raiseLowering (kind : FaultKind) (detail : Word24) (h : P s) : P (raiseLowering kind detail s) := by
  simp only [Machine.raiseLowering]
  split
  · exact k.noteFault kind detail h
  · exact k.reevaluateAll _ (k.lowerReference kind (k.noteFault kind detail h))

theorem sampleCount (a b : Bool) (h : P s) : P (sampleCount a b s) := by
  have taken : P (s.setCounter { s.counter with lineA := a, lineB := b, resyncCount := false }) :=
    k.lines a b s.counter.lineIndex false s.counter.resyncIndex s h
  simp only [Machine.sampleCount]
  split
  · exact taken
  split
  · exact taken
  · exact k.takeArrival _ taken
  · exact k.raiseLowering _ _ taken

theorem placePosition (mode : PresetMode) {v : Nat} (p : Port) {r : Option Nat}
    (onRing : v < s.counter.modulus ∨ ∃ a, s.counter.armed = some a ∧ a.value = v) (kept : ∀ x, r = some x → x = v)
    (h : P s) : P (placePosition mode v p r s) :=
  k.reevaluateAll _ (k.file _ _ (k.place v r s onRing kept h))

theorem driftEdge (d : Nat) (h : P s) : P (driftEdge d s) := by
  have lowered := k.lowerReference .indexDrift (k.noteFault .indexDrift (BitVec.ofNat 24 d) h)
  have chosen := k.choice _ lowered
  simp only [Machine.driftEdge]
  split
  · split
    · exact k.swapPending (k.reevaluateAll _ chosen)
    · exact k.reevaluateAll _ (k.swapPending chosen)
  · exact k.reevaluateAll _ lowered

theorem takeIndexEdge (h : P s) : P (takeIndexEdge s) := by
  unfold Machine.takeIndexEdge
  split
  · next a armed =>
    exact k.editAtIndex
      (k.placePosition _ _ (.inr ⟨a, armed, rfl⟩) (fun _ same => (Option.some.inj same).symm) h)
  split
  · next referenced =>
    split
    · exact k.editAtIndex (k.mark s referenced h)
    split
    · exact k.driftEdge _ h
    · exact k.editAtIndex h
  · exact k.editAtIndex h

theorem sampleIndex (i : Bool) (h : P s) : P (sampleIndex i s) := by
  have taken : P (s.setCounter { s.counter with lineIndex := i, resyncIndex := false }) :=
    k.lines s.counter.lineA s.counter.lineB i s.counter.resyncCount false s h
  simp only [Machine.sampleIndex]
  split
  · exact taken
  split
  · exact k.takeIndexEdge taken
  · exact taken

theorem withdrawPreset (cause : Byte) (h : P s) : P (withdrawPreset cause s) := by
  unfold Machine.withdrawPreset
  split
  · exact h
  · exact k.file _ _ (k.disarm s h)

/-! ## The monitor -/

theorem receiversFail (l : LineSet) (h : P s) : P (receiversFail l s) := by
  simp only [Machine.receiversFail]
  split
  · exact k.monitor _ _ h
  split
  · exact k.monitor _ _ h
  split
  · exact h
  · exact k.raiseLowering _ _ (k.monitor _ _ h)

theorem receiversHeal (l : LineSet) (h : P s) : P (receiversHeal l s) := k.monitor _ _ h

theorem restoreSignal (h : P s) : P (restoreSignal s) := k.file _ _ (k.monitor _ _ h)

theorem judgeOverspeed (h : P s) : P (judgeOverspeed s) := by
  simp only [Machine.judgeOverspeed]
  split
  · exact k.noteFault _ _ (k.monitor _ _ h)
  · exact k.monitor _ _ h

theorem act (x : PeriodReceiver) (h : P s) : P (x.act s) := by
  cases x with
  | motion => exact k.reevaluate _ _ (k.recomputeShifts h)
  | edit => exact k.editAtPeriodEnd h
  | overspeed => exact k.judgeOverspeed h

theorem closeSamplePeriod (h : P s) : P (closeSamplePeriod s) := by
  have receivers (xs : List PeriodReceiver) {z : State} (h : P z) : P (xs.foldl PeriodReceiver.act z) :=
    List.foldlRecOn (motive := P) xs PeriodReceiver.act h fun _ kept x _ => k.act x kept
  have closed : P (s.setMonitor s.monitor.closePeriod) := k.monitor _ _ h
  simp only [Machine.closeSamplePeriod]
  split
  · exact receivers _ (k.choice _ closed)
  · exact receivers _ closed

end KeptByParts

end Sys2Proof.Machine
end

section
/-! PROOFS. Whoever holds something is OPEN (R11, R60, R79, R107, R148): one rule for each block that the law is read from, the
port reset, the requests by what they give to or take from the caller, and the invariant of every step put together from
them. -/

namespace Sys2Proof.Machine

variable {s t : State} {p : Port}

/-! ## One rule for each block -/

/-- What the law is read from. -/
structure HolderView where
  claim : Option Port
  armed : Option Armed
  tracks : Table 16 Track
  session : Option EditSession
  op : Option StoreOp
  mail : Table 4 Mailbox
  port : Port → PortState × EndCause

def State.holderView (s : State) : HolderView :=
  { claim := s.counter.claim, armed := s.counter.armed, tracks := s.tracks, session := s.session, op := s.store.op,
    mail := s.mail, port := fun p => ((s.port p).state, (s.port p).endCause) }

theorem holdersLaw_congr (same : t.holderView = s.holderView) (law : holdersLaw s) : holdersLaw t := by
  simp only [State.holderView, HolderView.mk.injEq] at same
  obtain ⟨claim, armed, tracks, session, op, mail, port⟩ := same
  have state (p : Port) : (t.port p).state = (s.port p).state := congrArg Prod.fst (congrFun port p)
  have cause (p : Port) : (t.port p).endCause = (s.port p).endCause := congrArg Prod.snd (congrFun port p)
  simpa only [holdersLaw, State.isOpen, State.track, State.box, claim, armed, tracks, session, op, mail, state, cause] using law

theorem holdersLaw_setPort {x : PortRec} (state : x.state = (s.port p).state) (cause : x.endCause = (s.port p).endCause)
    (law : holdersLaw s) : holdersLaw (s.setPort p x) := by
  refine holdersLaw_congr ?_ law
  have port (q : Port) : (((s.setPort p x).port q).state, ((s.setPort p x).port q).endCause) =
      ((s.port q).state, (s.port q).endCause) := by
    rw [port_setPort]
    split
    · next same => rw [same, state, cause]
    · rfl
  simp only [State.holderView, port]
  rfl

theorem holdersLaw_setCounter {c : Counter} (claim : ∀ q, c.claim = some q → s.isOpen q = true)
    (armed : ∀ a, c.armed = some a → c.claim = some a.port) (law : holdersLaw s) : holdersLaw (s.setCounter c) := by
  obtain ⟨-, -, rest⟩ := law
  exact ⟨claim, armed, rest⟩

/-- A counter that keeps the claim, and the armed preset or none. -/
theorem holdersLaw_keepsClaim {c : Counter} (claim : c.claim = s.counter.claim)
    (armed : c.armed = s.counter.armed ∨ c.armed = none) (law : holdersLaw s) : holdersLaw (s.setCounter c) := by
  have ⟨claimed, ofClaim, _⟩ := law
  refine holdersLaw_setCounter (fun q holds => claimed q (claim ▸ holds)) (fun a present => ?_) law
  obtain same | none := armed
  · rw [claim]
    exact ofClaim a (same ▸ present)
  · cases none.symm.trans present

theorem holdersLaw_setTracks {f : TrackNo → Track} (owners : ∀ i q, (f i).ownerPort = some q → s.isOpen q = true)
    (law : holdersLaw s) : holdersLaw (s.setTracks (Table.build f)) := by
  obtain ⟨claim, armed, -, rest⟩ := law
  refine ⟨claim, armed, fun i q owns => owners i q ?_, rest⟩
  rwa [track_setTracks_build] at owns

theorem holdersLaw_setTrack {i : TrackNo} {x : Track} (owner : ∀ q, x.ownerPort = some q → s.isOpen q = true)
    (law : holdersLaw s) : holdersLaw (s.setTrack i x) := by
  obtain ⟨claim, armed, owners, rest⟩ := law
  refine ⟨claim, armed, fun j q owns => ?_, rest⟩
  rw [track_setTrack] at owns
  split at owns
  · exact owner q owns
  · exact owners j q owns

theorem holdersLaw_setSession {x : Option EditSession} (holder : ∀ e, x = some e → s.isOpen e.holder = true)
    (law : holdersLaw s) : holdersLaw (s.setSession x) := by
  obtain ⟨claim, armed, owners, -, rest⟩ := law
  exact ⟨claim, armed, owners, holder, rest⟩

theorem holdersLaw_setStore {x : Store} (requester : ∀ o q, x.op = some o → o.requester = some q → s.isOpen q = true)
    (law : holdersLaw s) : holdersLaw (s.setStore x) := by
  obtain ⟨claim, armed, owners, holder, -, rest⟩ := law
  exact ⟨claim, armed, owners, holder, requester, rest⟩

/-- Boxes that stay as they were at ports that are not OPEN. -/
theorem holdersLaw_setMail {x : Table 4 Mailbox} (silent : ∀ q, s.isOpen q = false → x.look q = s.box q)
    (law : holdersLaw s) : holdersLaw (s.setMail x) := by
  obtain ⟨claim, armed, owners, holder, requester, empty, cause⟩ := law
  exact ⟨claim, armed, owners, holder, requester, fun q closed => (silent q closed).trans (empty q closed), cause⟩

theorem holdersLaw_setBox (opened : s.isOpen p = true) (x : Mailbox) (law : holdersLaw s) : holdersLaw (s.setBox p x) := by
  refine holdersLaw_setMail (fun q closed => ?_) law
  have other : q ≠ p := by
    rintro rfl
    exact absurd (opened.symm.trans closed) (by decide)
  exact Table.look_put_ne _ _ other

/-- R121: no event is filed at a port that is not OPEN. -/
theorem holdersLaw_produce (ev : Event) (law : holdersLaw s) : holdersLaw (produce ev s) :=
  holdersLaw_setMail (fun q closed => (FilesOnly.produce q ev s).silent closed) law

theorem holdersLaw_produceIf (c : Bool) (ev : Event) (law : holdersLaw s) : holdersLaw (produceIf c ev s) := by
  unfold produceIf
  split
  · exact holdersLaw_produce ev law
  · exact law

/-! ## The encoder, the monitor and the edit unit -/

theorem holdersLaw_parts : KeptByParts holdersLaw where
  file ev _ := holdersLaw_produce ev
  choice _ := holdersLaw_congr rfl
  monitor _ _ := holdersLaw_congr rfl
  outputs _ _ := holdersLaw_congr rfl
  track i x s same law := by
    have ⟨_, _, owners, _⟩ := law
    exact holdersLaw_setTrack (fun q owns => owners i q (by rwa [Track.ownerPort, ← same])) law
  tracks f s kept law := by
    have ⟨_, _, owners, _⟩ := law
    refine holdersLaw_setTracks (fun i q owns => ?_) law
    obtain same | freed := kept i
    · exact owners i q (by rwa [Track.ownerPort, ← same])
    · rw [Track.ownerPort, freed] at owns
      cases owns
  lines _ _ _ _ _ _ := holdersLaw_congr rfl
  move d s := by
    refine holdersLaw_keepsClaim ?_ (.inl ?_)
    all_goals
      unfold Counter.move
      (repeat' split) <;> rfl
  mark _ _ := holdersLaw_congr rfl
  lower _ := holdersLaw_congr rfl
  disarm _ := holdersLaw_keepsClaim rfl (.inr rfl)
  place _ _ _ _ _ := holdersLaw_keepsClaim rfl (.inr rfl)
  swap _ _ _ _ law := holdersLaw_setSession (fun _ absent => by cases absent) (holdersLaw_congr rfl law)
  leave _ := holdersLaw_setSession fun _ absent => by cases absent
  resume e s session law := by
    have ⟨_, _, _, holder, _⟩ := law
    exact holdersLaw_setSession (fun _ same => by cases same; exact holder e session) law

theorem holdersLaw_freeAxis (q : Port) (cause : Byte) (disarmed : s.counter.armed = none) (law : holdersLaw s) :
    holdersLaw (freeAxis q cause s) := by
  refine holdersLaw_produce _ (holdersLaw_setCounter (fun _ absent => by cases absent) (fun a armed => ?_) law)
  cases disarmed.symm.trans armed

/-- R20: once withdrawn, no preset is armed. -/
theorem withdrawPreset_armed (cause : Byte) (s : State) : (withdrawPreset cause s).counter.armed = none := by
  unfold withdrawPreset
  split
  · assumption
  · rfl

/-- R23: the geometry placed leaves claim and armed preset, which is then withdrawn. -/
theorem holdersLaw_changeGeometry (x : AxisConfig) (law : holdersLaw s) : holdersLaw (changeGeometry x s) := by
  have withdrawn := holdersLaw_parts.withdrawPreset 2 (holdersLaw_congr (t := placeGeometry x s) rfl law)
  exact holdersLaw_parts.reevaluateAll _ (holdersLaw_parts.recomputeShifts (holdersLaw_produceIf _ _ withdrawn))

/-! ## The store -/

theorem holdersLaw_endStore (i : SlotNo) (x : Slot) (law : holdersLaw s) : holdersLaw (endStore s i x) :=
  holdersLaw_setStore (fun _ _ idle => by cases idle) law

theorem holdersLaw_completeStore (cellsHold : Bool) (law : holdersLaw s) : holdersLaw (completeStore cellsHold s) := by
  unfold completeStore
  split
  · split
    · split
      · exact holdersLaw_endStore _ _ (holdersLaw_produce _ law)
      · exact holdersLaw_endStore _ _ (holdersLaw_produce _ law)
    · exact holdersLaw_endStore _ _ law
  · exact law

theorem holdersLaw_completeErase (law : holdersLaw s) : holdersLaw (completeErase s) := by
  unfold completeErase
  split
  · exact holdersLaw_endStore _ _ (holdersLaw_produce _ law)
  · exact law

theorem holdersLaw_startStore (opened : s.isOpen p = true) (i : SlotNo) (x : Slot) (kind : StoreKind) (law : holdersLaw s) :
    holdersLaw (startStore s i x kind p) := by
  refine holdersLaw_setStore (fun o q busy asked => ?_) law
  cases busy
  cases asked
  exact opened

/-! ## The port reset -/

theorem portReset_port (p q : Port) (c : ResetCause) (s : State) :
    (portReset p c s).port q = if q = p then (s.port p).afterReset c else s.port q := by
  rw [portReset_eq]
  exact Table.look_put _ _ _ _

/-- R152: a track that still has an owner after the reset had it before, and it is another port. -/
theorem portReset_ownerPort {q : Port} {c : ResetCause} {i : TrackNo}
    (owned : ((portReset p c s).track i).ownerPort = some q) : (s.track i).ownerPort = some q ∧ q ≠ p := by
  rw [portReset_track, released] at owned
  generalize axisFreed : resetAxisOf p c _ = z at owned
  have tracks : z.tracks = s.tracks := by rw [← axisFreed, resetAxisOf_tracks]; rfl
  cases mine : z.owns p i with
  | false =>
    rw [resetTracksOf_track_other mine, track_congr tracks] at owned
    refine ⟨owned, ?_⟩
    rintro rfl
    rw [State.owns, track_congr tracks, owned] at mine
    simp at mine
  | true =>
    obtain ⟨-, none⟩ | freed := resetTracksOf_cases p c z
    · exact absurd (mine.symm.trans (none i)) (by decide)
    · have free : ((resetTracksOf p c z).track i).owner = none := by
        simp [freed, freeTracks, reevaluate_track, mine, Track.freed]
      rw [Track.ownerPort, free] at owned
      cases owned

/-- R152: the reset takes from the port whatever it holds; what other ports hold they keep, and they stay OPEN. -/
theorem holdersLaw_portReset (p : Port) (c : ResetCause) (law : holdersLaw s) : holdersLaw (portReset p c s) := by
  obtain ⟨claim, armed, owners, holder, requester, empty, cause⟩ := law
  have others {q : Port} (other : q ≠ p) : (portReset p c s).isOpen q = s.isOpen q := (portReset_filesOnly other c s).isOpen
  have counter : (portReset p c s).counter =
      if s.counter.claim = some p then { s.counter with claim := none, armed := none } else s.counter := by
    rw [portReset_eq]
  refine ⟨fun q claimed => ?claim, fun a preset => ?armed, fun i q owned => ?owner, fun e session => ?session,
    fun o q busy asked => ?store, fun q closed => ?box, fun q => ?cause⟩
  case claim =>
    rw [counter] at claimed
    split at claimed
    · cases claimed
    · next notMine =>
      have other : q ≠ p := by
        rintro rfl
        exact notMine claimed
      rw [others other]
      exact claim q claimed
  case armed =>
    rw [counter] at preset ⊢
    split at preset
    · cases preset
    · next notMine =>
      rw [if_neg notMine]
      exact armed a preset
  case owner =>
    obtain ⟨before, other⟩ := portReset_ownerPort owned
    rw [others other]
    exact owners i q before
  case session =>
    have kept : (portReset p c s).session = if s.holdsSession p = true then none else s.session := by rw [portReset_eq]
    rw [kept] at session
    split at session
    · cases session
    · next notMine =>
      have other : e.holder ≠ p := by simpa [State.holdsSession, session] using notMine
      rw [others other]
      exact holder e session
  case store =>
    rw [portReset_store] at busy
    obtain ⟨before, busyBefore, rfl⟩ := Option.map_eq_some_iff.1 busy
    unfold StoreOp.forget at asked
    split at asked
    · cases asked
    · next notMine =>
      have other : q ≠ p := by
        rintro rfl
        exact notMine asked
      rw [others other]
      exact requester before q busyBefore asked
  case box =>
    by_cases mine : q = p
    · rw [mine, portReset_eq]
      exact Table.look_put_same _ _ _
    · rw [(portReset_filesOnly mine c s).silent (others mine ▸ closed)]
      exact empty q (others mine ▸ closed)
  case cause =>
    rw [State.isOpen, portReset_port]
    split
    · cases c <;> simp [PortRec.afterReset, ResetCause.endCause, ResetCause.portState]
    · exact cause q

/-- R143: what is left of a port that is not OPEN stays so. -/
theorem holdersLaw_closeExpired (closed : s.isOpen p = false) (law : holdersLaw s) :
    holdersLaw (s.setPort p (s.port p).closeExpired) := by
  have same (q : Port) : (s.setPort p (s.port p).closeExpired).isOpen q = s.isOpen q := by
    rw [State.isOpen, port_setPort]
    split
    · next mine => rw [mine, closed]; rfl
    · rfl
  obtain ⟨claim, armed, owners, holder, requester, empty, cause⟩ := law
  refine ⟨?_, armed, ?_, ?_, ?_, ?_, fun q => ?cause⟩
  case cause =>
    have kept : ((s.setPort p (s.port p).closeExpired).port q).endCause = (s.port q).endCause := by
      rw [port_setPort]
      split
      · next mine => rw [mine]; rfl
      · rfl
    rw [same, kept]
    exact cause q
  all_goals simpa only [same]

/-! ## The requests -/

/-- A list of parameters without a bad one has them all in range. -/
theorem inRange_of_firstBad_none {l : List Bool} (noneBad : firstBad l = none) {b : Bool} (mem : b ∈ l) : b = true := by
  have all := List.findIdx?_eq_none_iff.1 noneBad b mem
  simpa using all

/-- R16. -/
theorem preset_onRing {payload : List Byte} {m : Nat}
    (inRange : firstBad [decide (u24 payload 0 < m), (PresetMode.ofCode (u8 payload 3)).isSome] = none) :
    u24 payload 0 < m :=
  of_decide_eq_true (inRange_of_firstBad_none inRange (by simp))

theorem session_of_sessionOf {e : EditSession} (holds : s.sessionOf p = some e) : s.session = some e ∧ e.holder = p := by
  simpa [State.sessionOf] using holds

/-- R158: every request but OPEN, CLOSE and IDENTIFY is admitted at OPEN ports only. -/
theorem isOpen_of_admits {r : Request} (admits : stateAdmits (s.port p).state (some r) = true) (notOpen : r ≠ .openPort)
    (notClose : r ≠ .closePort) (notIdentify : r ≠ .identify) : s.isOpen p = true := by
  unfold State.isOpen
  cases state : (s.port p).state <;> simp_all [stateAdmits]

/-- The requests that take or give a hold, open the port, or write its box. -/
def Request.touchesHolders : Request → Bool
  | .identify | .closePort | .readStatus | .clearFault | .restart | .readAxis | .clearAxisFault | .readTracks
  | .readWindows | .readSlot => false
  | _ => true

/-- The other requests read, or write of the part no more than counters, records and the lifecycle. -/
theorem holdersLaw_inert {r : Request} (inert : r.touchesHolders = false) (p : Port) (payload : List Byte)
    (law : holdersLaw s) : holdersLaw (handle r p payload s).state := by
  cases r <;> simp only [Request.touchesHolders, Bool.true_eq_false] at inert <;> simp only [handle]
  case identify | readAxis | readTracks => exact law
  case closePort => unfold reqClose; split <;> exact law
  case readStatus =>
    unfold reqReadStatus
    split
    · exact law
    · have chosen : holdersLaw s.advanceChoices := holdersLaw_congr rfl law
      simp only [replyOk]
      split
      · exact holdersLaw_setPort rfl rfl chosen
      · exact chosen
  case clearFault =>
    unfold reqClearFault
    split
    · split
      · exact law
      split
      · exact holdersLaw_setPort rfl rfl law
      · exact law
    · exact law
  case restart =>
    unfold reqRestart
    (repeat' split) <;> exact holdersLaw_congr rfl law
  case clearAxisFault =>
    unfold reqClearAxisFault
    (repeat' split) <;> exact holdersLaw_congr rfl law
  case readWindows =>
    unfold reqReadWindows
    (repeat' split) <;> exact law
  case readSlot => unfold reqReadSlot; split <;> exact law

/-- R149. -/
theorem holdersLaw_open (p : Port) (payload : List Byte) (law : holdersLaw s) :
    holdersLaw (reqOpen p payload s).state := by
  unfold reqOpen
  split
  · obtain ⟨claim, armed, owners, holder, requester, empty, cause⟩ := law
    simp only [replyOk]
    generalize opened : s.setPort p _ = z
    have isOpen (q : Port) : z.isOpen q = (decide (q = p) || s.isOpen q) := by
      rw [← opened, State.isOpen, port_setPort]
      split
      · next mine => simp [mine]
      · next other => simp [other, State.isOpen]
    have keeps {q : Port} (before : s.isOpen q = true) : z.isOpen q = true := by rw [isOpen, before, Bool.or_true]
    subst opened
    refine ⟨fun q h => keeps (claim q h), armed, fun i q h => keeps (owners i q h), fun e h => keeps (holder e h),
      fun o q h a => keeps (requester o q h a), fun q closed => ?box, fun q => ?cause⟩
    case box =>
      rw [isOpen, Bool.or_eq_false_iff] at closed
      exact empty q closed.2
    case cause =>
      rw [isOpen, port_setPort]
      split
      · next mine => simp [mine]
      · next other => simpa [other] using cause q
  · exact law

section Requests

variable (payload : List Byte) (law : holdersLaw s)
include law

theorem holdersLaw_releaseAxis : holdersLaw (reqReleaseAxis p payload s).state := by
  unfold reqReleaseAxis
  split
  · exact holdersLaw_freeAxis p 1 (withdrawPreset_armed 1 s) (holdersLaw_parts.withdrawPreset 1 law)
  · exact law

/-- R18: the preset is armed by the port that holds the claim. -/
theorem holdersLaw_preset : holdersLaw (reqPreset p payload s).state := by
  unfold reqPreset
  split
  · exact law
  next inRange =>
  split
  · exact law
  next mine =>
  split
  · exact law
  split
  · exact holdersLaw_parts.placePosition _ _ (.inl (preset_onRing inRange)) (fun _ absent => by cases absent) law
  · have ⟨claim, _⟩ := law
    refine holdersLaw_setCounter claim (fun a armed => ?_) law
    cases armed
    exact Classical.not_not.1 mine

theorem holdersLaw_cancelPreset : holdersLaw (reqCancelPreset p payload s).state := by
  unfold reqCancelPreset
  split
  · exact law
  split
  · exact holdersLaw_parts.withdrawPreset 0 law
  · exact law

theorem holdersLaw_setAxis : holdersLaw (reqSetAxis p payload s).state := by
  unfold reqSetAxis
  split
  · exact law
  split
  · exact law
  split
  · exact law
  split
  · exact law
  split
  · exact holdersLaw_parts.monitor _ _ law
  · exact holdersLaw_changeGeometry _ law

theorem holdersLaw_releaseTracks : holdersLaw (reqReleaseTracks p payload s).state := by
  simp only [reqReleaseTracks]
  split
  · exact law
  split
  · exact law
  · exact holdersLaw_parts.freeTracks _ p 1 law

/-- A session written again with the holder that it had. -/
theorem holdersLaw_sameHolder {e f : EditSession} (holds : s.sessionOf p = some e) (same : f.holder = e.holder) :
    holdersLaw (s.setSession (some f)) := by
  obtain ⟨session, -⟩ := session_of_sessionOf holds
  have ⟨_, _, _, holder, _⟩ := law
  refine holdersLaw_setSession (fun e' written => ?_) law
  cases written
  rw [same]
  exact holder e session

theorem holdersLaw_writeWindows : holdersLaw (reqWriteWindows p payload s).state := by
  unfold reqWriteWindows
  split
  · exact law
  split
  · exact law
  next holds =>
  split
  · exact law
  split
  · exact law
  split
  · exact law
  split
  · exact law
  · exact holdersLaw_sameHolder law holds rfl

theorem holdersLaw_commit : holdersLaw (reqCommit p payload s).state := by
  simp only [reqCommit]
  split
  · exact law
  split
  · exact law
  next e holds =>
  split
  · exact law
  split
  · exact law
  split
  · obtain ⟨session, -⟩ := session_of_sessionOf holds
    exact holdersLaw_parts.swapWith _ session law
  · exact holdersLaw_sameHolder law holds rfl

theorem holdersLaw_abortEdit : holdersLaw (reqAbortEdit p payload s).state := by
  unfold reqAbortEdit
  split
  · exact law
  split
  · exact law
  split
  · split
    · exact holdersLaw_parts.withdrawCommit 1 law
    · exact law
  · exact holdersLaw_parts.endSession law

theorem holdersLaw_loadSlot : holdersLaw (reqLoadSlot p payload s).state := by
  unfold reqLoadSlot
  split
  · exact law
  split
  · exact law
  next holds =>
  split
  · exact law
  split
  · exact law
  split
  · exact law
  split
  · exact law
  · exact holdersLaw_sameHolder law holds rfl

variable (opened : s.isOpen p = true)
include opened

/-- R11: a free claim has no armed preset with it. -/
theorem holdersLaw_claimAxis : holdersLaw (reqClaimAxis p payload s).state := by
  unfold reqClaimAxis
  split
  · next free =>
    have ⟨_, ofClaim, _⟩ := law
    refine holdersLaw_produce _ (holdersLaw_setCounter (fun q mine => ?_) (fun a armed => ?_) law)
    · cases mine
      exact opened
    · cases free.symm.trans (ofClaim a armed)
  split
  · exact law
  · exact law

/-- R62: a track of the mask keeps its owner or gets the caller. -/
theorem holdersLaw_claimTracks : holdersLaw (reqClaimTracks p payload s).state := by
  simp only [reqClaimTracks]
  split
  · exact law
  split
  · exact law
  split
  · exact law
  refine holdersLaw_produceIf _ _ (holdersLaw_setTracks (fun i q owns => ?_) law)
  have ⟨_, _, owners, _⟩ := law
  split at owns
  · unfold Track.claimed at owns
    split at owns
    · exact owners i q owns
    · cases owns
      exact opened
  · exact owners i q owns

/-- R68: SET-TRACK makes the caller the owner. -/
theorem holdersLaw_setTrackReply : holdersLaw (reqSetTrack p payload s).state := by
  unfold reqSetTrack
  split
  · exact law
  split
  · exact law
  split
  · refine holdersLaw_parts.reevaluate _ _ (holdersLaw_setTrack (fun q owns => ?_) law)
    cases owns
    exact opened
  · exact law

theorem holdersLaw_openEdit : holdersLaw (reqOpenEdit p payload s).state := by
  unfold reqOpenEdit
  split
  · exact law
  split
  · split
    · exact law
    · exact law
  · exact holdersLaw_setSession (fun e same => by cases same; exact opened) law

theorem holdersLaw_storeSlot : holdersLaw (reqStoreSlot p payload s).state := by
  obtain same | ⟨i, boot, -, -, started⟩ := reqStoreSlot_cases p payload s
  · exact same.symm ▸ law
  · exact started.symm ▸ holdersLaw_startStore opened i _ .store law

theorem holdersLaw_eraseSlot : holdersLaw (reqEraseSlot p payload s).state := by
  obtain same | ⟨i, -, started⟩ := reqEraseSlot_cases p payload s
  · exact same.symm ▸ law
  · exact started.symm ▸ holdersLaw_startStore opened i _ .erase law

theorem holdersLaw_subscribe : holdersLaw (reqSubscribe p payload s).state := by
  unfold reqSubscribe
  split
  · exact holdersLaw_setBox opened _ law
  · exact law

theorem holdersLaw_fetchEvents : holdersLaw (reqFetchEvents p payload s).state := by
  simp only [reqFetchEvents]
  split
  · exact holdersLaw_setBox opened _ law
  · exact law

end Requests

theorem holdersLaw_handle (r : Request) (payload : List Byte) (admits : stateAdmits (s.port p).state (some r) = true)
    (law : holdersLaw s) : holdersLaw (handle r p payload s).state := by
  by_cases inert : r.touchesHolders = false
  · exact holdersLaw_inert inert p payload law
  by_cases opens : r = .openPort
  · subst opens
    exact holdersLaw_open p payload law
  have opened : s.isOpen p = true := by
    refine isOpen_of_admits admits opens ?_ ?_
    all_goals
      rintro rfl
      exact inert rfl
  cases r <;> simp only [Request.touchesHolders, not_true_eq_false] at inert
  case openPort => exact absurd rfl opens
  case claimAxis => exact holdersLaw_claimAxis payload law opened
  case releaseAxis => exact holdersLaw_releaseAxis payload law
  case preset => exact holdersLaw_preset payload law
  case cancelPreset => exact holdersLaw_cancelPreset payload law
  case setAxis => exact holdersLaw_setAxis payload law
  case claimTracks => exact holdersLaw_claimTracks payload law opened
  case releaseTracks => exact holdersLaw_releaseTracks payload law
  case setTrack => exact holdersLaw_setTrackReply payload law opened
  case openEdit => exact holdersLaw_openEdit payload law opened
  case writeWindows => exact holdersLaw_writeWindows payload law
  case commit => exact holdersLaw_commit payload law
  case abortEdit => exact holdersLaw_abortEdit payload law
  case storeSlot => exact holdersLaw_storeSlot payload law opened
  case eraseSlot => exact holdersLaw_eraseSlot payload law opened
  case loadSlot => exact holdersLaw_loadSlot payload law
  case subscribe => exact holdersLaw_subscribe payload law opened
  case fetchEvents => exact holdersLaw_fetchEvents payload law opened

/-! ## Device reset and the load -/

/-- Nobody holds anything after a device reset. -/
theorem holdersLaw_deviceReset (s : State) : holdersLaw (deviceReset s) := by
  have port (q : Port) : ((deviceReset s).port q).state = .closed ∧ ((deviceReset s).port q).endCause = .deviceReset := by
    rw [deviceReset_port]
    exact ⟨rfl, rfl⟩
  refine holdersLaw_congr ?_ holdersLaw_reset
  have ports (q : Port) : (((deviceReset s).port q).state, ((deviceReset s).port q).endCause) =
      ((State.reset.port q).state, (State.reset.port q).endCause) := by
    obtain ⟨state, cause⟩ := port q
    rw [state, cause, reset_port]
    rfl
  simp only [State.holderView, ports]
  rfl

/-- R116: the end of the load gives the tracks settings and levels, and leaves their owners. -/
theorem endLoad_track_owner (s : State) (i : TrackNo) : ((endLoad s).track i).owner = (s.track i).owner := by
  unfold endLoad
  cases bootImage s <;> simp [settleLevels, drivePins, applyImage]

theorem holdersLaw_endLoad (law : holdersLaw s) : holdersLaw (endLoad s) := by
  have claim : (endLoad s).counter.claim = s.counter.claim ∧ (endLoad s).counter.armed = s.counter.armed := by
    unfold endLoad
    cases bootImage s <;> simp [applyImage]
  have port (q : Port) : (endLoad s).port q = s.port q := by
    unfold endLoad
    cases bootImage s <;> rfl
  have owner (i : TrackNo) : ((endLoad s).track i).ownerPort = (s.track i).ownerPort := by
    rw [Track.ownerPort, endLoad_track_owner]
    rfl
  obtain ⟨claimSame, armedSame⟩ := claim
  simpa only [holdersLaw, State.isOpen, port, owner, claimSame, armedSame, endLoad_session, endLoad_store,
    box_congr (endLoad_mail s)] using law

/-! ## The law is kept by every operation -/

theorem holdersLaw_kept : Kept holdersLaw where
  port _ _ _ := holdersLaw_setPort
  request r _ payload _ _ admits _ := holdersLaw_handle r payload admits
  reset p c _ _ := holdersLaw_portReset p c
  close _ _ := holdersLaw_closeExpired
  device s _ := holdersLaw_deviceReset s
  load _ _ _ := holdersLaw_congr rfl
  loaded _ _ := holdersLaw_endLoad
  count a b _ _ := holdersLaw_parts.sampleCount a b
  index i _ _ := holdersLaw_parts.sampleIndex i
  fail l _ := holdersLaw_parts.receiversFail l
  heal l _ := holdersLaw_parts.receiversHeal l
  restore _ _ := holdersLaw_parts.restoreSignal
  period _ _ := holdersLaw_parts.closeSamplePeriod
  deadline _ _ := holdersLaw_parts.withdrawCommit 0
  stored b _ := holdersLaw_completeStore b
  erased _ := holdersLaw_completeErase
  outputs l _ := holdersLaw_parts.changeOe l

/-- Settles O57: the law survives every shared operation, since only an admitted request gives a port anything to hold, and the
port reset takes all of it back. -/
theorem everyStepKeepsHoldersOpen : Obligations.EveryStepKeepsHoldersOpen := fun _ _ law stepped =>
  holdersLaw_kept.step (fun _ _ => holdersLaw_congr rfl) (fun _ _ _ => holdersLaw_congr rfl) law stepped

end Sys2Proof.Machine
end

section
/-! PROOFS. Positions on the ring, and banks and images valid on it (R15, R47, R50, R82, R103): the law block by block, one rule for
each block, what puts a program or a position there, and the invariant of every step put together from them. -/

namespace Sys2Proof.Machine

variable {s t : State} {p : Port} {m n : Nat} {b : Bank} {g : Image}

/-! ## The law block by block -/

/-- R15, R50: the ring has a modulus in range, every position of the counter lies on it, and r is held only while REFERENCED. -/
structure Counter.OnRing (c : Counter) : Prop where
  modulus : 2 ≤ c.modulus ∧ c.modulus ≤ 16777216
  position : c.p < c.modulus
  index : ∀ r, c.r = some r → r < c.modulus
  preset : ∀ a, c.armed = some a → a.value < c.modulus
  referenced : c.r.isSome = true → c.ref = .referenced

/-- R82: the shadow is valid on the ring of `m` counts, and a swap position lies on it. -/
structure EditSession.OnRing (m : Nat) (e : EditSession) : Prop where
  shadow : bankLaw m e.shadow
  position : ∀ pc, e.pending = some pc → pc.position < m

/-- The two laws of the invariant, by the blocks that they are read from. -/
structure RingKept (s : State) : Prop where
  counter : s.counter.OnRing
  active : bankLaw s.counter.modulus s.active
  session : ∀ e, s.session = some e → e.OnRing s.counter.modulus
  slots : ∀ i g, s.slot i = .valid g → g.wellMade = true

theorem ringKept_iff : RingKept s ↔ ringLaw s ∧ referenceLaw s := by
  constructor
  · rintro ⟨⟨modulus, position, index, preset, referenced⟩, active, session, slots⟩
    exact ⟨⟨modulus, position, index, preset, active, fun e present => ⟨(session e present).shadow,
      (session e present).position⟩, slots⟩, referenced⟩
  · rintro ⟨⟨modulus, position, index, preset, active, session, slots⟩, referenced⟩
    exact ⟨⟨modulus, position, index, preset, referenced⟩, active, fun e present => ⟨(session e present).1,
      (session e present).2⟩, slots⟩

/-! ## One rule for each block -/

theorem RingKept.congr (h : RingKept s) (counter : t.counter = s.counter) (active : t.active = s.active)
    (session : t.session = s.session) (store : t.store = s.store) : RingKept t where
  counter := counter ▸ h.counter
  active := by rw [counter, active]; exact h.active
  session := by rw [counter, session]; exact h.session
  slots i := by rw [slot_congr store]; exact h.slots i

theorem RingKept.setCounter {c : Counter} (h : RingKept s) (onRing : c.OnRing) (modulus : c.modulus = s.counter.modulus) :
    RingKept (s.setCounter c) :=
  ⟨onRing, modulus ▸ h.active, modulus ▸ h.session, h.slots⟩

theorem RingKept.setSession {x : Option EditSession} (h : RingKept s)
    (onRing : ∀ e, x = some e → e.OnRing s.counter.modulus) : RingKept (s.setSession x) :=
  ⟨h.counter, h.active, onRing, h.slots⟩

/-- One slot written, with or without an image that is valid. -/
theorem RingKept.putSlot {i : SlotNo} {x : Slot} {op : Option StoreOp} (h : RingKept s)
    (made : ∀ g, x = .valid g → g.wellMade = true) :
    RingKept (s.setStore { s.store with slots := s.store.slots.put i x, op := op }) := by
  refine ⟨h.counter, h.active, h.session, fun j g valid => ?_⟩
  have slot : (s.setStore { s.store with slots := s.store.slots.put i x, op := op }).slot j =
      if j = i then x else s.slot j := Table.look_put _ _ _ _
  rw [slot] at valid
  split at valid
  · exact made g valid
  · exact h.slots j g valid

/-! ## Banks on the ring -/

/-- R103: the lists of a well made image are a bank on the image's ring. -/
theorem bankLaw_image (made : g.wellMade = true) (tag : Word16) : bankLaw g.modulus { lists := g.lists, tag := tag } := by
  simp only [Image.wellMade, Bool.and_eq_true, decide_eq_true_eq, List.all_eq_true, Table.mem_numbers, true_implies,
    Option.isNone_iff_eq_none] at made
  obtain ⟨⟨-, valid⟩, pool⟩ := made
  exact ⟨valid, pool⟩

/-- R22: a bank whose edges all lie on a ring is valid on it where it is valid on another. -/
theorem bankLaw_modulus (law : bankLaw m b) (inside : b.reaches n = false) : bankLaw n b := by
  obtain ⟨valid, pool⟩ := law
  refine ⟨fun t => checkList_modulus (valid t) fun w mem => ?_, pool⟩
  have edges : ∀ t, ∀ w ∈ b.list t, w.on < n ∧ w.off < n := by simpa [Bank.reaches] using inside
  exact edges t w mem

/-- R84: a valid list that the pool has room for. -/
theorem bankLaw_put {i : TrackNo} {ws : List Window} (law : bankLaw m b) (valid : checkList m ws = none)
    (room : ¬ 96 < totalAfter b i ws) : bankLaw m { b with lists := b.lists.put i ws } := by
  obtain ⟨validBefore, -⟩ := law
  refine ⟨fun j => ?_, by rw [total_put]; exact Nat.not_lt.1 room⟩
  have list : ({ b with lists := b.lists.put i ws } : Bank).list j = if j = i then ws else b.list j :=
    Table.look_put _ _ _ _
  rw [list]
  split
  · exact valid
  · exact validBefore j

/-! ## The encoder, the monitor and the edit unit -/

theorem move_modulus (c : Counter) (d : Dir) : (c.move d).modulus = c.modulus := by
  unfold Counter.move
  (repeat' split) <;> rfl

/-- R8: one step up, in one record. -/
theorem move_up (c : Counter) :
    c.move .up =
      { c with
        lastDir := .up
        p := if c.p + 1 < c.modulus then c.p + 1 else 0
        turns := if c.p + 1 < c.modulus then c.turns else c.turns + 1 } := by
  unfold Counter.move
  by_cases inside : c.p + 1 < c.modulus <;> simp only [inside, if_true, if_false]

/-- R8: one step down, in one record. -/
theorem move_down (c : Counter) :
    c.move .down =
      { c with
        lastDir := .down
        p := if 0 < c.p then c.p - 1 else c.modulus - 1
        turns := if 0 < c.p then c.turns else c.turns - 1 } := by
  unfold Counter.move
  by_cases inside : 0 < c.p <;> simp only [inside, if_true, if_false]

/-- R8: a step leads from the ring to the ring, round its end or its beginning. -/
theorem Counter.OnRing.move {c : Counter} (h : c.OnRing) (d : Dir) : (c.move d).OnRing := by
  obtain ⟨modulus, position, index, preset, referenced⟩ := h
  cases d with
  | up =>
    rw [move_up]
    refine ⟨modulus, ?_, index, preset, referenced⟩
    simp only []
    split <;> omega
  | down =>
    rw [move_down]
    refine ⟨modulus, ?_, index, preset, referenced⟩
    simp only []
    split <;> omega

theorem ringKept_parts : KeptByParts RingKept where
  file _ _ h := h.congr rfl rfl rfl rfl
  choice _ h := h.congr rfl rfl rfl rfl
  monitor _ _ h := h.congr rfl rfl rfl rfl
  outputs _ _ h := h.congr rfl rfl rfl rfl
  track _ _ _ _ h := h.congr rfl rfl rfl rfl
  tracks _ _ _ h := h.congr rfl rfl rfl rfl
  lines _ _ _ _ _ _ h := by
    obtain ⟨modulus, position, index, preset, referenced⟩ := h.counter
    exact h.setCounter ⟨modulus, position, index, preset, referenced⟩ rfl
  move d s h := h.setCounter (h.counter.move d) (move_modulus _ d)
  mark s referenced h := by
    obtain ⟨modulus, position, -, preset, -⟩ := h.counter
    exact h.setCounter ⟨modulus, position, fun r same => Option.some.inj same ▸ position, preset, fun _ => referenced⟩ rfl
  lower s h := by
    obtain ⟨modulus, position, -, preset, -⟩ := h.counter
    exact h.setCounter ⟨modulus, position, fun r absent => (by cases absent), preset, fun absent => (by cases absent)⟩ rfl
  disarm s h := by
    obtain ⟨modulus, position, index, -, referenced⟩ := h.counter
    exact h.setCounter ⟨modulus, position, index, fun a absent => (by cases absent), referenced⟩ rfl
  place v r s onRing kept h := by
    obtain ⟨modulus, -, -, preset, -⟩ := h.counter
    have inside : v < s.counter.modulus := by
      obtain inside | ⟨a, armed, rfl⟩ := onRing
      · exact inside
      · exact preset a armed
    exact h.setCounter ⟨modulus, inside, fun x same => kept x same ▸ inside, fun a absent => (by cases absent), fun _ => rfl⟩
      rfl
  swap e tag s session h := ⟨h.counter, (h.session e session).shadow, fun _ absent => (by cases absent), h.slots⟩
  leave _ h := h.setSession fun _ absent => by cases absent
  resume e s session h := h.setSession fun _ same => by
    cases same
    exact ⟨(h.session e session).shadow, fun _ absent => (by cases absent)⟩

/-! ## A change of geometry -/

theorem withdrawPreset_counter (cause : Byte) (s : State) :
    (withdrawPreset cause s).counter = { s.counter with armed := none } := by
  unfold withdrawPreset
  split
  · next disarmed => rw [← disarmed]
  · rfl

/-- R23. -/
theorem changeGeometry_counter (x : AxisConfig) (s : State) :
    (changeGeometry x s).counter =
      { s.counter with
        p := 0, turns := 0, modulus := x.modulus, inputMode := x.inputMode, invert := x.invert, lastDir := .up,
        ref := .unreferenced, r := none, armed := none, resyncCount := true } := by
  simp only [changeGeometry, reevaluateAll_counter, recomputeShifts_counter, produceIf_counter, withdrawPreset_counter]
  rfl

/-- R22, R23: with no session, and no edge of the active bank past the new ring, everything lies on the new ring. -/
theorem RingKept.changeGeometry {x : AxisConfig} (h : RingKept s) (modulus : 2 ≤ x.modulus ∧ x.modulus ≤ 16777216)
    (noSession : s.session = none) (inside : s.active.reaches x.modulus = false) : RingKept (changeGeometry x s) := by
  refine ⟨?_, ?_, fun e present => ?_, fun i => ?_⟩
  · rw [changeGeometry_counter]
    exact ⟨modulus, Nat.lt_of_lt_of_le Nat.zero_lt_two modulus.1, fun r absent => (by cases absent),
      fun a absent => (by cases absent), fun absent => (by cases absent)⟩
  · rw [changeGeometry_counter, changeGeometry_active]
    exact bankLaw_modulus h.active inside
  · rw [changeGeometry_session, noSession] at present
    cases present
  · rw [slot_congr (changeGeometry_store s x)]
    exact h.slots i

/-! ## The requests -/

/-- The requests that write a position, a bank or a slot. -/
def Request.touchesRing : Request → Bool
  | .releaseAxis | .preset | .cancelPreset | .setAxis | .openEdit | .writeWindows | .commit | .abortEdit | .storeSlot
  | .eraseSlot | .loadSlot => true
  | _ => false

section Requests

variable (p : Port) (payload : List Byte) (h : RingKept s)
include h

theorem ringKept_claimAxis : RingKept (reqClaimAxis p payload s).state := by
  unfold reqClaimAxis
  split
  · obtain ⟨modulus, position, index, preset, referenced⟩ := h.counter
    exact ringKept_parts.file _ _ (h.setCounter ⟨modulus, position, index, preset, referenced⟩ rfl)
  split
  · exact h
  · exact h

theorem ringKept_setTrack : RingKept (reqSetTrack p payload s).state := by
  unfold reqSetTrack
  split
  · exact h
  split
  · exact h
  split
  · exact ringKept_parts.reevaluate _ _ (h.congr rfl rfl rfl rfl)
  · exact h

theorem ringKept_releaseTracks : RingKept (reqReleaseTracks p payload s).state := by
  simp only [reqReleaseTracks]
  split
  · exact h
  split
  · exact h
  · exact ringKept_parts.freeTracks _ p 1 h

/-- The other requests leave counter, banks and slots, CLAIM-AXIS apart from the claim. -/
theorem ringKept_inert {r : Request} (inert : r.touchesRing = false) : RingKept (handle r p payload s).state := by
  cases r <;> simp only [Request.touchesRing, Bool.true_eq_false] at inert <;> simp only [handle]
  case identify | readAxis | readTracks => exact h
  case openPort => unfold reqOpen; split <;> exact h.congr rfl rfl rfl rfl
  case closePort => unfold reqClose; split <;> exact h
  case readStatus =>
    unfold reqReadStatus
    split
    · exact h
    · simp only [replyOk]
      split <;> exact h.congr rfl rfl rfl rfl
  case clearFault => unfold reqClearFault; (repeat' split) <;> exact h.congr rfl rfl rfl rfl
  case restart => unfold reqRestart; (repeat' split) <;> exact h.congr rfl rfl rfl rfl
  case claimAxis => exact ringKept_claimAxis p payload h
  case clearAxisFault => unfold reqClearAxisFault; (repeat' split) <;> exact h.congr rfl rfl rfl rfl
  case claimTracks =>
    simp only [reqClaimTracks]
    split
    · exact h
    split
    · exact h
    split
    · exact h
    · exact h.congr (produceIf_counter _ _ _) (produceIf_active _ _ _) (produceIf_session _ _ _) (produceIf_store _ _ _)
  case releaseTracks => exact ringKept_releaseTracks p payload h
  case setTrack => exact ringKept_setTrack p payload h
  case readWindows => unfold reqReadWindows; (repeat' split) <;> exact h
  case readSlot => unfold reqReadSlot; split <;> exact h
  case subscribe => unfold reqSubscribe; split <;> exact h.congr rfl rfl rfl rfl
  case fetchEvents => simp only [reqFetchEvents]; split <;> exact h.congr rfl rfl rfl rfl

theorem ringKept_releaseAxis : RingKept (reqReleaseAxis p payload s).state := by
  unfold reqReleaseAxis
  split
  · have withdrawn := ringKept_parts.withdrawPreset 1 h
    obtain ⟨modulus, position, index, preset, referenced⟩ := withdrawn.counter
    exact ringKept_parts.file _ _ (withdrawn.setCounter ⟨modulus, position, index, preset, referenced⟩ rfl)
  · exact h

/-- R16: the value of an admitted preset lies on the ring. -/
theorem ringKept_preset : RingKept (reqPreset p payload s).state := by
  unfold reqPreset
  split
  · exact h
  next inRange =>
  split
  · exact h
  split
  · exact h
  split
  · exact ringKept_parts.placePosition _ _ (.inl (preset_onRing inRange)) (fun _ absent => (by cases absent)) h
  · obtain ⟨modulus, position, index, -, referenced⟩ := h.counter
    refine h.setCounter ⟨modulus, position, index, fun a armed => ?_, referenced⟩ rfl
    cases armed
    exact preset_onRing inRange

theorem ringKept_cancelPreset : RingKept (reqCancelPreset p payload s).state := by
  unfold reqCancelPreset
  split
  · exact h
  split
  · exact ringKept_parts.withdrawPreset 0 h
  · exact h

/-- R22: the new modulus is in range. -/
theorem ringKept_setAxis : RingKept (reqSetAxis p payload s).state := by
  unfold reqSetAxis
  split
  · exact h
  split
  · exact h
  next inRange =>
  split
  · exact h
  next noSession =>
  split
  · exact h
  next inside =>
  split
  · exact h.congr rfl rfl rfl rfl
  · have modulus : (decide (2 ≤ u32 payload 0) && decide (u32 payload 0 ≤ 16777216)) = true :=
      inRange_of_firstBad_none inRange (by simp [axisInRange])
    exact h.changeGeometry (by simpa [axisConfig] using modulus) (by simpa using noSession) (by simpa using inside)

/-- R80: the shadow of a new session is the active bank or an empty one. -/
theorem ringKept_openEdit : RingKept (reqOpenEdit p payload s).state := by
  unfold reqOpenEdit
  split
  · exact h
  split
  · split
    · exact h
    · exact h
  · refine h.setSession fun e same => ?_
    cases same
    refine ⟨?_, fun pc absent => (by cases absent)⟩
    simp only []
    split
    · exact bankLaw_empty _
    · exact h.active

/-- R83: the list written is valid, and the pool has room for it. -/
theorem ringKept_writeWindows : RingKept (reqWriteWindows p payload s).state := by
  unfold reqWriteWindows
  split
  · exact h
  split
  · exact h
  next e holds =>
  split
  · exact h
  split
  · exact h
  split
  · exact h
  next valid =>
  split
  · exact h
  next room =>
  obtain ⟨session, -⟩ := session_of_sessionOf holds
  refine h.setSession fun f same => ?_
  cases same
  exact ⟨bankLaw_put (h.session e session).shadow valid room, (h.session e session).position⟩

/-- R86: the swap position is in range. -/
theorem ringKept_commit : RingKept (reqCommit p payload s).state := by
  simp only [reqCommit]
  split
  · exact h
  next inRange =>
  split
  · exact h
  next e holds =>
  obtain ⟨session, -⟩ := session_of_sessionOf holds
  split
  · exact h
  split
  · exact h
  split
  · exact ringKept_parts.swapWith _ session h
  · refine h.setSession fun f same => ?_
    cases same
    refine ⟨(h.session e session).shadow, fun pc pending => ?_⟩
    cases pending
    have position : decide (u24 payload 3 < s.counter.modulus) = true :=
      inRange_of_firstBad_none inRange (by simp [commitInRange])
    exact of_decide_eq_true position

theorem ringKept_abortEdit : RingKept (reqAbortEdit p payload s).state := by
  unfold reqAbortEdit
  split
  · exact h
  split
  · exact h
  split
  · split
    · exact ringKept_parts.withdrawCommit 1 h
    · exact h
  · exact ringKept_parts.endSession h

/-- R110, R111: the image loaded is VALID, and made for the modulus in force. -/
theorem ringKept_loadSlot : RingKept (reqLoadSlot p payload s).state := by
  unfold reqLoadSlot
  split
  · exact h
  next i _ =>
  split
  · exact h
  next e holds =>
  split
  · exact h
  split
  · exact h
  split
  · exact h
  next g image =>
  split
  · exact h
  next sameModulus =>
  obtain ⟨session, -⟩ := session_of_sessionOf holds
  have valid : s.slot i = .valid g := by
    revert image
    cases s.slot i <;> simp [Slot.validImage]
  refine h.setSession fun f same => ?_
  cases same
  refine ⟨?_, (h.session e session).position⟩
  rw [← Classical.not_not.1 sameModulus]
  exact bankLaw_image (h.slots i g valid) g.tag

theorem ringKept_storeSlot : RingKept (reqStoreSlot p payload s).state := by
  obtain same | ⟨i, boot, -, -, started⟩ := reqStoreSlot_cases p payload s
  · exact same.symm ▸ h
  · exact started.symm ▸ h.putSlot fun g valid => by cases valid

theorem ringKept_eraseSlot : RingKept (reqEraseSlot p payload s).state := by
  obtain same | ⟨i, -, started⟩ := reqEraseSlot_cases p payload s
  · exact same.symm ▸ h
  · exact started.symm ▸ h.putSlot fun g valid => by cases valid

theorem ringKept_handle (r : Request) : RingKept (handle r p payload s).state := by
  by_cases inert : r.touchesRing = false
  · exact ringKept_inert p payload h inert
  cases r <;> simp only [Request.touchesRing, not_true_eq_false] at inert
  case releaseAxis => exact ringKept_releaseAxis p payload h
  case preset => exact ringKept_preset p payload h
  case cancelPreset => exact ringKept_cancelPreset p payload h
  case setAxis => exact ringKept_setAxis p payload h
  case openEdit => exact ringKept_openEdit p payload h
  case writeWindows => exact ringKept_writeWindows p payload h
  case commit => exact ringKept_commit p payload h
  case abortEdit => exact ringKept_abortEdit p payload h
  case storeSlot => exact ringKept_storeSlot p payload h
  case eraseSlot => exact ringKept_eraseSlot p payload h
  case loadSlot => exact ringKept_loadSlot p payload h

end Requests

/-! ## Completions, resets and the load -/

/-- R106: an image read back is judged before its slot becomes VALID. -/
theorem RingKept.completeStore (cellsHold : Bool) (h : RingKept s) : RingKept (completeStore cellsHold s) := by
  have ended {u : State} {i : SlotNo} {x : Slot} (same : u.counter = s.counter ∧ u.active = s.active ∧
      u.session = s.session ∧ u.store = s.store) (made : ∀ g, x = .valid g → g.wellMade = true) :
      RingKept (endStore u i x) := by
    obtain ⟨counter, active, session, store⟩ := same
    exact (h.congr counter active session store).putSlot made
  unfold Machine.completeStore
  split
  · split
    · split
      · next whole =>
        refine ended ⟨rfl, rfl, rfl, rfl⟩ fun g valid => ?_
        cases valid
        exact (whole_some whole).2
      · exact ended ⟨rfl, rfl, rfl, rfl⟩ fun g valid => by cases valid
    · exact ended ⟨rfl, rfl, rfl, rfl⟩ fun g valid => h.slots _ g valid
  · exact h

theorem RingKept.completeErase (h : RingKept s) : RingKept (completeErase s) := by
  unfold Machine.completeErase
  split
  · exact (ringKept_parts.file _ _ h).putSlot fun g valid => by cases valid
  · exact h

/-- R152: of what the law is read from, a port reset takes claim, armed preset and session. -/
theorem RingKept.portReset (p : Port) (c : ResetCause) (h : RingKept s) : RingKept (portReset p c s) := by
  rw [portReset_eq]
  generalize freed : (if s.counter.claim = some p then _ else s.counter) = after
  have modulus : after.modulus = s.counter.modulus := by
    rw [← freed]
    split <;> rfl
  refine ⟨?_, modulus ▸ h.active, fun e present => ?_, h.slots⟩
  · rw [← freed]
    split
    · obtain ⟨modulus, position, index, -, referenced⟩ := h.counter
      exact ⟨modulus, position, index, fun a absent => (by cases absent), referenced⟩
    · exact h.counter
  · simp only [] at present
    split at present
    · cases present
    · exact modulus ▸ h.session e present

theorem RingKept.deviceReset (h : RingKept s) : RingKept (deviceReset s) := by
  obtain ⟨onRing, active, session, -⟩ := ringKept_iff.2 ⟨ringLaw_reset, referenceLaw_reset⟩
  refine ⟨onRing, active, session, fun i g valid => ?_⟩
  rw [deviceReset_slot, interrupted_valid] at valid
  exact h.slots i g valid

/-- R114: the load judges an image before its slot becomes VALID. -/
theorem RingKept.beginLoad (straps : BitVec 2) (h : RingKept s) : RingKept (beginLoad straps s) := by
  refine ⟨h.counter, h.active, h.session, fun i g valid => ?_⟩
  rw [beginLoad_slot] at valid
  obtain ⟨⟨c, -, whole⟩, -⟩ := of_judgeSlot_valid valid
  exact (whole_some whole).2

/-! ### The end of the load -/

/-- R116: the end of the load after the boot image, or none, has been applied. -/
def settled (s : State) : State :=
  (settleLevels (s.setMonitor (s.monitor.firstPeriod s.time))).setLifecycle .running

theorem endLoad_image (boot : bootImage s = some g) : endLoad s = settled (applyImage g s) := by
  simp only [endLoad, boot, settled]

theorem endLoad_noImage (boot : bootImage s = none) : endLoad s = settled s := by
  simp only [endLoad, boot, settled]

/-- The boot image is that of the VALID slot that the boot record names. -/
theorem bootImage_some_iff : bootImage s = some g ↔ ∃ b, s.store.boot = some b ∧ s.slot b.slot = .valid g := by
  have image (x : Slot) : x.validImage = some g ↔ x = .valid g := by cases x <;> simp [Slot.validImage]
  simp only [bootImage, Option.bind_eq_some_iff, image]

theorem RingKept.settled (h : RingKept s) : RingKept (settled s) := h.congr rfl rfl rfl rfl

/-- R116: before service the position stands at 0 and nothing is kept, so an image's ring and program may be put in force. -/
theorem RingKept.endLoad (boot : bootLaw s) (closed : s.inService = false) (h : RingKept s) : RingKept (endLoad s) := by
  obtain ⟨-, position, -, noIndex, noPreset, -, noSession, -⟩ := boot closed
  cases image : bootImage s with
  | none =>
    rw [endLoad_noImage image]
    exact h.settled
  | some g =>
    rw [endLoad_image image]
    obtain ⟨b, -, valid⟩ := bootImage_some_iff.1 image
    have made := h.slots b.slot g valid
    obtain ⟨-, modulus, -⟩ := wellMade_iff.1 made
    refine RingKept.settled ⟨⟨modulus, ?_, fun r present => ?_, fun a armed => ?_, fun present => ?_⟩,
      bankLaw_image made g.tag, fun e present => ?_, h.slots⟩
    · exact position ▸ Nat.lt_of_lt_of_le Nat.zero_lt_two modulus.1
    · cases noIndex.symm.trans present
    · cases noPreset.symm.trans armed
    · exact absurd present (by simp [applyImage, noIndex])
    · cases noSession.symm.trans present

/-! ## The laws are kept by every operation -/

theorem ringKept_kept : Kept fun s => bootLaw s ∧ RingKept s where
  port s p x state cause := .imp (bootLaw_kept.port s p x state cause) fun h => h.congr rfl rfl rfl rfl
  request r p payload s running admits length :=
    .imp (bootLaw_kept.request r p payload s running admits length) fun h => ringKept_handle p payload h r
  reset p c s opened := .imp (bootLaw_kept.reset p c s opened) (RingKept.portReset p c)
  close s p notOpen := .imp (bootLaw_kept.close s p notOpen) fun h => h.congr rfl rfl rfl rfl
  device s := .imp (bootLaw_kept.device s) RingKept.deviceReset
  load straps s reset := .imp (bootLaw_kept.load straps s reset) (RingKept.beginLoad straps)
  loaded s loading := fun ⟨boot, h⟩ =>
    ⟨bootLaw_kept.loaded s loading boot, h.endLoad boot (by simp [State.inService, loading])⟩
  count a b s service := .imp (bootLaw_kept.count a b s service) (ringKept_parts.sampleCount a b)
  index i s service := .imp (bootLaw_kept.index i s service) (ringKept_parts.sampleIndex i)
  fail l s := .imp (bootLaw_kept.fail l s) (ringKept_parts.receiversFail l)
  heal l s := .imp (bootLaw_kept.heal l s) (ringKept_parts.receiversHeal l)
  restore s due := .imp (bootLaw_kept.restore s due) ringKept_parts.restoreSignal
  period s due := .imp (bootLaw_kept.period s due) ringKept_parts.closeSamplePeriod
  deadline s due := .imp (bootLaw_kept.deadline s due) (ringKept_parts.withdrawCommit 0)
  stored b s := .imp (bootLaw_kept.stored b s) (RingKept.completeStore b)
  erased s := .imp (bootLaw_kept.erased s) RingKept.completeErase
  outputs l s := .imp (bootLaw_kept.outputs l s) (ringKept_parts.changeOe l)

/-- Settles O58: the two laws are `RingKept`, which survives every shared operation, since what is put into a bank, a session or a
slot has been judged, and what moves a position keeps it on the ring. -/
theorem everyStepKeepsTheRingAndItsPrograms : Obligations.EveryStepKeepsTheRingAndItsPrograms := by
  rintro s t ⟨boot, laws⟩ stepped
  have kept : bootLaw t ∧ RingKept t :=
    ringKept_kept.step (fun s l => .imp ?bootQueue ?queue) (fun s x _ => .imp ?bootTime ?time)
      ⟨boot, ringKept_iff.2 laws⟩ stepped
  exact kept.imp_right ringKept_iff.1
  case bootQueue | bootTime => exact bootLaw_congr rfl
  case queue | time => exact fun h => h.congr rfl rfl rfl rfl

end Sys2Proof.Machine
end

section
/-! PROOFS. Device reset (00_scope 4.6, R113, R155) and the end of the power-up load (R25, R35, R59, R116): the record that each
leaves, and the two statements put together from them. -/

namespace Sys2Proof.Machine

variable {s : State} {g : Image}

/-! ## Device reset -/

/-- R113: an operation in flight leaves neither image. -/
theorem interrupted_eq (x : Slot) : x.interrupted = if x.inFlight then .damaged .torn else x := by cases x <;> rfl

/-- R155: the reset of an admitted RESTART waits for the end of the response. -/
theorem exec_restartDeviceReset {p : Port} (restarting : s.lifecycle = .restarting p) :
    exec .restartDeviceReset s = .next (if (s.port p).tx.isNone then deviceReset s else s) := by
  simp only [exec, execRestartDeviceReset, restarting]

theorem exec_restartDeviceReset_none (noRestart : ∀ p, s.lifecycle ≠ .restarting p) :
    exec .restartDeviceReset s = .next s := by
  show execRestartDeviceReset s = .next s
  unfold execRestartDeviceReset
  split
  · next p restarting => exact absurd restarting (noRestart p)
  · rfl

/-- Settles O11: the record that a reset leaves, and RESTART_DEVICE_RESET by what has been admitted and sent. -/
theorem deviceResetKeepsOnlyTheSlots : Obligations.DeviceResetKeepsOnlyTheSlots := by
  intro s t
  have reset : deviceReset s = t := by simp only [t, deviceReset, interrupted_eq, reset_port]; rfl
  refine ⟨congrArg _ reset, congrArg _ reset, fun p restarting sent => ?_, fun p restarting sending => ?_,
    exec_restartDeviceReset_none⟩
  · rw [exec_restartDeviceReset restarting, if_pos (Option.isNone_iff_eq_none.2 sent), reset]
  · rw [exec_restartDeviceReset restarting, if_neg (mt Option.isNone_iff_eq_none.1 sending)]

/-! ## The end of the load -/

theorem exec_powerUpLoadEnd (s : State) :
    exec .powerUpLoadEnd s = .next (if s.lifecycle = .loading then endLoad s else s) := rfl

theorem someLine_eq (l : LineSet) : l.someLine = ! noLines l := by
  obtain ⟨a, b, index⟩ := l
  revert a b index
  decide

theorem settled_levelOf (s : State) (i : TrackNo) : (settled s).levelOf i = s.levelOf i := by
  apply levelOf_congr <;> simp [settled, settleLevels, drivePins, Track.effective]

/-- R59: every level is evaluated and every pin set. -/
theorem settled_track (s : State) (i : TrackNo) :
    (settled s).track i = { s.track i with level := s.levelOf i, pin := s.levelOf i && s.oe } := by
  simp only [settled, settleLevels, drivePins, track_setLifecycle, track_setTracks_build, setTracks_oe, setMonitor_oe,
    track_setMonitor]
  rfl

/-- R25, R35: the first sample period. -/
theorem settled_monitor (s : State) :
    (settled s).monitor =
      { s.monitor with
        periodLength := s.monitor.samplePeriod, periodStart := s.time, signalLoss := s.monitor.inFault.someLine,
        lossTouched := s.monitor.inFault.someLine, restoreHold := none } := by
  rw [someLine_eq]
  rfl

theorem endLoad_self (s : State) :
    endLoad s =
      { s with
        lifecycle := .running, counter := (endLoad s).counter, monitor := (endLoad s).monitor,
        active := (endLoad s).active, tracks := (endLoad s).tracks } := by
  unfold endLoad
  cases bootImage s <;> rfl

theorem applyImage_track (g : Image) (s : State) (i : TrackNo) :
    (applyImage g s).track i =
      { s.track i with
        orphan := (g.settings.look i).orphan, lead := (g.settings.look i).lead,
        runUnref := (g.settings.look i).runUnref } := by
  simp [applyImage]

theorem bootImage_none (noImage : ∀ b g, s.store.boot = some b → s.slot b.slot ≠ .valid g) : bootImage s = none := by
  cases image : bootImage s with
  | none => rfl
  | some g =>
    obtain ⟨b, boot, valid⟩ := bootImage_some_iff.1 image
    exact absurd valid (noImage b g boot)

/-- The end of the load is `settled` of a state that has the image's parts or the defaults, and is otherwise as before. -/
theorem endLoad_settled (s : State) :
    ∃ z, endLoad s = settled z ∧ z.oe = s.oe ∧ z.time = s.time ∧
      z.monitor =
        { s.monitor with
          samplePeriod := z.monitor.samplePeriod, overspeedLimit := z.monitor.overspeedLimit,
          driftTolerance := z.monitor.driftTolerance } ∧
      ∀ i, (z.track i).owner = (s.track i).owner ∧ (z.track i).held = (s.track i).held ∧
        (z.track i).shift = (s.track i).shift := by
  cases image : bootImage s with
  | none => exact ⟨s, endLoad_noImage image, rfl, rfl, rfl, fun i => ⟨rfl, rfl, rfl⟩⟩
  | some g =>
    refine ⟨applyImage g s, endLoad_image image, rfl, rfl, rfl, fun i => ?_⟩
    rw [applyImage_track]
    exact ⟨rfl, rfl, rfl⟩

/-- Settles O13: the parts put in force with and without a boot image, and what the settling leaves in either case. -/
theorem powerUpLoadEndAppliesTheImage : Obligations.PowerUpLoadEndAppliesTheImage := by
  intro s
  refine ⟨fun later => ?later, fun loading => ⟨endLoad s, ?exec, endLoad_self s, fun b g boot valid => ?image,
    fun noImage => ?defaults, ?monitor, fun i => ?tracks⟩⟩
  case later => rw [exec_powerUpLoadEnd, if_neg later]
  case exec => rw [exec_powerUpLoadEnd, if_pos loading]
  case image =>
    rw [endLoad_image (bootImage_some_iff.2 ⟨b, boot, valid⟩)]
    refine ⟨rfl, rfl, rfl, rfl, rfl, fun i => ?_⟩
    rw [settled_track, applyImage_track]
    exact ⟨rfl, rfl, rfl⟩
  case defaults =>
    rw [endLoad_noImage (bootImage_none noImage)]
    refine ⟨rfl, rfl, rfl, rfl, rfl, fun i => ?_⟩
    rw [settled_track]
    exact ⟨rfl, rfl, rfl⟩
  case monitor =>
    obtain ⟨z, same, -, time, monitor, -⟩ := endLoad_settled s
    rw [same, settled_monitor, time, monitor]
  case tracks =>
    obtain ⟨z, same, oe, -, -, tracks⟩ := endLoad_settled s
    obtain ⟨owner, held, shift⟩ := tracks i
    rw [same, settled_levelOf, settled_track, oe]
    exact ⟨owner, held, shift, rfl, rfl⟩

end Sys2Proof.Machine
end

section
/-! PROOFS. One sample of A and B (R3 to R9, R27, R32, R91): what it decodes to by the input mode, the step on the ring of a count
arrival, the order of its re-evaluation and a swap, and the three statements put together from them. -/

namespace Sys2Proof.Machine

variable {s : State} {a b index : Bool}

/-! ## Decoding (R4 to R6) -/

theorem decodePulseDir_eq (a0 b0 a b : Bool) :
    decode .pulseDir a0 b0 a b =
      if a0 = false ∧ a = true then .count (if b = true then .up else .down) else .nothing := by
  revert a0 b0 a b
  decide

theorem decodeUpDown_eq (a0 b0 a b : Bool) :
    decode .upDown a0 b0 a b =
      if (a0 = false ∧ a = true) ∧ ¬ (b0 = false ∧ b = true) then .count .up
      else if (b0 = false ∧ b = true) ∧ ¬ (a0 = false ∧ a = true) then .count .down
      else .nothing := by
  revert a0 b0 a b
  decide

/-- R6: in the quadrature modes the samples that change both lines are the count errors. -/
theorem decodeQuad_error_iff (counts a0 b0 a b : Bool) :
    decodeQuad counts a0 b0 a b = .error ↔ a0 ≠ a ∧ b0 ≠ b := by
  revert counts a0 b0 a b
  decide

theorem decodeQuad_same (counts a b : Bool) : decodeQuad counts a b a b = .nothing := by
  revert counts a b
  decide

/-- Settles O14: the two pulse modes and the quadrature modes over all levels, and the entries of Table 1-2. -/
theorem decodingFollowsTheInputMode : Obligations.DecodingFollowsTheInputMode := by
  refine ⟨decodePulseDir_eq, decodeUpDown_eq, fun mode quadrature => ?quadrature, ?x1, ?x2, ?x4⟩
  case quadrature =>
    obtain rfl | rfl | rfl := quadrature
    all_goals exact ⟨fun _ _ _ _ => (decodeQuad_error_iff _ _ _ _ _).symm, fun _ _ => decodeQuad_same _ _ _⟩
  case x1 => decide
  case x2 => decide
  case x4 => decide

/-! ## A sample of A and B by what it decodes to -/

/-- The decoder line state takes the levels of A and B (R3). -/
def linesTaken (a b : Bool) (s : State) : State :=
  { s with counter := { s.counter with lineA := a, lineB := b, resyncCount := false } }

/-- R2, R3: a first sample, a sample during signal loss, and one that decodes to nothing. -/
theorem sampleCount_nothing
    (h : s.counter.resyncCount = true ∨ s.monitor.signalLoss = true ∨
      decode s.counter.inputMode s.counter.lineA s.counter.lineB a b = .nothing) :
    sampleCount a b s = linesTaken a b s := by
  simp only [sampleCount]
  split
  · rfl
  next noSkip =>
  simp only [Bool.or_eq_true, not_or] at noSkip
  obtain ⟨synchronised, noLoss⟩ := noSkip
  obtain resync | loss | nothing := h
  · exact absurd resync synchronised
  · exact absurd loss noLoss
  · rw [nothing]
    rfl

section Synchronised

variable (synchronised : s.counter.resyncCount = false) (noLoss : s.monitor.signalLoss = false)
include synchronised noLoss

theorem sampleCount_count {d : Dir} (count : decode s.counter.inputMode s.counter.lineA s.counter.lineB a b = .count d) :
    sampleCount a b s = takeArrival (d.inverted s.counter.invert) (linesTaken a b s) := by
  simp only [sampleCount, synchronised, noLoss, count, Bool.or_self, Bool.false_eq_true, if_false]
  rfl

theorem sampleCount_error (error : decode s.counter.inputMode s.counter.lineA s.counter.lineB a b = .error) :
    sampleCount a b s =
      raiseLowering .countError (bytes24 0 (abCode s.counter.lineA s.counter.lineB) (abCode a b)) (linesTaken a b s) := by
  simp only [sampleCount, synchronised, noLoss, error, Bool.or_self, Bool.false_eq_true, if_false]
  rfl

end Synchronised

/-- R178: the two bits of an AB state do not overlap. -/
theorem abCode_sum (a b : Bool) : abCode a b = (if a then 2 else 0) + (if b then 1 else 0) := by
  revert a b
  decide

/-! ## Samples and the commands that bring them (R2) -/

theorem sampleCountFirst_inService (service : s.inService = true) :
    sampleCountFirst a b index s = sampleIndex index (sampleCount a b s) := if_pos service

theorem sampleCountFirst_beforeService (closed : s.inService = false) : sampleCountFirst a b index s = s :=
  if_neg (by simp [closed])

theorem sampleIndexFirst_inService (service : s.inService = true) :
    sampleIndexFirst a b index s = sampleCount a b (sampleIndex index s) := if_pos service

theorem sampleIndexFirst_beforeService (closed : s.inService = false) : sampleIndexFirst a b index s = s :=
  if_neg (by simp [closed])

theorem exec_countArrival : exec (.countArrival a b index) s = .next (sampleCountFirst a b index s) := rfl

theorem exec_countError : exec (.countError a b index) s = .next (sampleCountFirst a b index s) := rfl

theorem exec_decoderSampleWithoutCount :
    exec (.decoderSampleWithoutCount a b index) s = .next (sampleCountFirst a b index s) := rfl

theorem exec_indexEdge : exec (.indexEdge a b index) s = .next (sampleIndexFirst a b index s) := rfl

/-- Settles O16: samples before service, samples that count nothing, and samples that are count errors. -/
theorem samplesWithoutACount : Obligations.SamplesWithoutACount := by
  intro s a b index taken
  refine ⟨fun closed => ?before, fun service => ⟨fun nothing => ?nothing, fun synchronised noLoss error => ?error⟩⟩
  case before =>
    rw [exec_countArrival, exec_countError, exec_indexEdge, exec_decoderSampleWithoutCount,
      sampleCountFirst_beforeService closed, sampleIndexFirst_beforeService closed]
    exact ⟨rfl, rfl, rfl, rfl⟩
  case nothing =>
    rw [exec_decoderSampleWithoutCount, sampleCountFirst_inService service, sampleCount_nothing nothing]
    rfl
  case error =>
    rw [exec_countError, sampleCountFirst_inService service, sampleCount_error synchronised noLoss error,
      raiseLowering_raised, abCode_sum, abCode_sum]
    rfl

/-! ## A count arrival (R7 to R9, R27, R91) -/

/-- R7: UP after invert. -/
theorem inverted_up_iff (d : Dir) (invert : Bool) :
    d.inverted invert = .up ↔ (d = .up ∧ invert = false) ∨ (d = .down ∧ invert = true) := by
  cases d <;> cases invert <;> decide

/-- R90: an arrival meets the pending commit that waits for its position and takes its direction. -/
theorem arrivalMeets_iff (d : Dir) :
    s.arrivalMeets d = true ↔
      ∃ e pc, s.session = some e ∧ e.pending = some pc ∧ pc.condition = .atPosition ∧ pc.position = s.counter.p ∧
        (pc.direction = .either ∨ (pc.direction = .up ∧ d = .up) ∨ (pc.direction = .down ∧ ¬ d = .up)) := by
  have accepts (x : SwapDir) : x.accepts d = true ↔ x = .either ∨ (x = .up ∧ d = .up) ∨ (x = .down ∧ ¬ d = .up) := by
    cases x <;> cases d <;> decide
  unfold State.arrivalMeets State.pendingCommit
  cases s.session with
  | none => simp
  | some e => cases pending : e.pending <;> simp [pending, accepts, and_assoc]

theorem takeArrival_alone {d : Dir} (alone : ¬ (stepPosition d s).arrivalMeets d = true) :
    takeArrival d s = reevaluateAll .motion (stepPosition d s) := if_neg alone

/-- R91: the swap is taken before or after the re-evaluation of the arrival. -/
theorem takeArrival_meets {d : Dir} {e : EditSession} {pc : PendingCommit} (session : s.session = some e)
    (pending : e.pending = some pc) (meets : (stepPosition d s).arrivalMeets d = true) :
    let moved := (stepPosition d s).advanceChoices
    takeArrival d s = swapped e pc.tag (reevaluateAll .motion moved) ∨
    takeArrival d s = reevaluateAll .motion (swapped e pc.tag moved) := by
  intro moved
  have later : swapPending (reevaluateAll .motion moved) = swapped e pc.tag (reevaluateAll .motion moved) :=
    swapPending_swapped ((reevaluateAll_session moved .motion).trans session) pending
  have earlier : swapPending moved = swapped e pc.tag moved := swapPending_swapped session pending
  rw [← later, ← earlier]
  simp only [takeArrival, if_pos meets]
  split
  · exact .inl rfl
  · exact .inr rfl

/-- Settles O15: the step in one record for each direction, and the arrival with and without a commit that it meets. -/
theorem countArrivalStepsTheRing : Obligations.CountArrivalStepsTheRing := by
  intro s a b index d service synchronised noLoss count up c moved isUp isDown meets
  generalize direction : d.inverted s.counter.invert = d'
  have upIff : d' = .up ↔ up := by rw [← direction, inverted_up_iff]
  have step : stepPosition d' (linesTaken a b s) = moved := by
    cases d' with
    | up =>
      rw [isUp (upIff.1 rfl)]
      simp only [stepPosition, linesTaken, move_up]
      rw [← synchronised]
      rfl
    | down =>
      rw [isDown (mt upIff.2 (by decide))]
      simp only [stepPosition, linesTaken, move_down]
      rw [← synchronised]
      rfl
  have session : moved.session = s.session := by rw [← step]; rfl
  have arrives : moved.arrivalMeets d' = true ↔ ∃ e pc, s.session = some e ∧ e.pending = some pc ∧ meets pc := by
    simp only [arrivalMeets_iff, session, upIff, meets]
  rw [exec_countArrival, sampleCountFirst_inService service, sampleCount_count synchronised noLoss count, direction]
  refine ⟨fun alone => ?alone, fun e pc present pending met => ⟨moved.choices + 1, ?meets⟩⟩
  case alone =>
    have none : ¬ (stepPosition d' (linesTaken a b s)).arrivalMeets d' = true := by
      rw [step, arrives]
      rintro ⟨e, pc, present, pending, met⟩
      exact alone e pc present pending met
    rw [takeArrival_alone none, step]
  case meets =>
    have here : (stepPosition d' (linesTaken a b s)).arrivalMeets d' = true := by
      rw [step, arrives]
      exact ⟨e, pc, present, pending, met⟩
    have orders := takeArrival_meets (s := linesTaken a b s) present pending here
    rw [step] at orders
    exact orders.imp (fun same => by rw [same]; rfl) (fun same => by rw [same]; rfl)

end Sys2Proof.Machine
end

section
/-! PROOFS. One sample of INDEX (R10, R15, R19, R37, R92): the circular distance, what an edge is to the counter's state, the order
of the re-evaluations of a drift and a swap, and the statement put together from them. -/

namespace Sys2Proof.Machine

variable {s : State} {index : Bool}

/-! ## The circular distance (R37) -/

/-- The way from `r` up to `p` on the ring. -/
theorem ringWay {p r m : Nat} (hp : p < m) (hr : r < m) : (p + m - r) % m = if r ≤ p then p - r else p + m - r := by
  split
  · next above =>
    rw [show p + m - r = p - r + m by omega, Nat.add_mod_right]
    exact Nat.mod_eq_of_lt (by omega)
  · exact Nat.mod_eq_of_lt (by omega)

/-- The distance is the shorter of the two ways round the ring. -/
theorem circularDistance_eq {p r m : Nat} (hp : p < m) (hr : r < m) :
    circularDistance p r m = min ((p + m - r) % m) ((r + m - p) % m) := by
  rw [ringWay hp hr, ringWay hr hp, circularDistance]
  split <;> split <;> omega

/-! ## A commit that waits for the index (R92) -/

theorem indexMeets_iff :
    s.indexMeets = true ↔ ∃ e pc, s.session = some e ∧ e.pending = some pc ∧ pc.condition = .atIndex := by
  unfold State.indexMeets State.pendingCommit
  cases s.session with
  | none => simp
  | some e => cases pending : e.pending <;> simp [pending]

theorem not_indexMeets (other : ∀ e pc, s.session = some e → e.pending = some pc → pc.condition ≠ .atIndex) :
    ¬ s.indexMeets = true := by
  rw [indexMeets_iff]
  rintro ⟨e, pc, session, pending, waits⟩
  exact other e pc session pending waits

theorem editAtIndex_none (other : ∀ e pc, s.session = some e → e.pending = some pc → pc.condition ≠ .atIndex) :
    editAtIndex s = s := if_neg (not_indexMeets other)

theorem editAtIndex_swap {e : EditSession} {pc : PendingCommit} (session : s.session = some e)
    (pending : e.pending = some pc) (waits : pc.condition = .atIndex) : editAtIndex s = swapped e pc.tag s := by
  rw [editAtIndex, if_pos (indexMeets_iff.2 ⟨e, pc, session, pending, waits⟩), swapPending_swapped session pending]

/-! ## An index edge by the counter's state (R10) -/

/-- PRESET_DONE in the mode AT_INDEX carries the turns that the preset has placed. -/
theorem presetDoneEvent_eq (mode : PresetMode) (p : Port) (v : Nat) (turns : s.counter.turns = 0) :
    presetDoneEvent s mode p v =
      { kind := .presetDone, subject := 16 * mode.code + byteOf p.val, detail := BitVec.ofNat 24 v, extra := 0,
        direct := some p } := by
  have subject : halves mode.code p = 16 * mode.code + byteOf p.val := by
    revert p
    cases mode <;> decide
  rw [presetDoneEvent, subject, State.turns24, turns]
  rfl

/-- R17, R19: a preset places the position and reports it. -/
theorem placePosition_eq (mode : PresetMode) (v : Nat) (p : Port) (r : Option Nat) (s : State) :
    placePosition mode v p r s =
      reevaluateAll .preset
        (produce
          { kind := .presetDone, subject := 16 * mode.code + byteOf p.val, detail := BitVec.ofNat 24 v, extra := 0,
            direct := some p }
          { s with counter := { s.counter with p := v, turns := 0, ref := .referenced, r := r, armed := none } }) := by
  rw [placePosition, presetDoneEvent_eq _ _ _ rfl]
  rfl

theorem takeIndexEdge_armed {x : Armed} (armed : s.counter.armed = some x) :
    takeIndexEdge s = editAtIndex (placePosition .atIndex x.value x.port (some x.value) s) := by
  simp only [takeIndexEdge, armed]

section Disarmed

variable (disarmed : s.counter.armed = none)
include disarmed

theorem takeIndexEdge_records (referenced : s.counter.ref = .referenced) (absent : s.counter.r = none) :
    takeIndexEdge s = editAtIndex (s.setCounter { s.counter with r := some s.counter.p }) := by
  simp only [takeIndexEdge, disarmed, referenced, absent, if_true]

/-- R37: an edge past the tolerance. -/
theorem takeIndexEdge_drifts {r : Nat} (referenced : s.counter.ref = .referenced) (present : s.counter.r = some r)
    (watched : 0 < s.monitor.driftTolerance)
    (past : s.monitor.driftTolerance < circularDistance s.counter.p r s.counter.modulus) :
    takeIndexEdge s = driftEdge (circularDistance s.counter.p r s.counter.modulus) s := by
  simp only [takeIndexEdge, disarmed, referenced, present, watched, past, decide_true, Bool.and_self, if_true]

theorem takeIndexEdge_inert
    (noDrift : ¬ (s.counter.ref = .referenced ∧ 0 < s.monitor.driftTolerance ∧
      ∃ r, s.counter.r = some r ∧ s.monitor.driftTolerance < circularDistance s.counter.p r s.counter.modulus))
    (noRecord : ¬ (s.counter.ref = .referenced ∧ s.counter.r = none)) : takeIndexEdge s = editAtIndex s := by
  simp only [takeIndexEdge, disarmed]
  split
  · next referenced =>
    split
    · next absent => exact absurd ⟨referenced, absent⟩ noRecord
    · next r present =>
      refine if_neg fun drifts => noDrift ?_
      rw [Bool.and_eq_true, decide_eq_true_eq, decide_eq_true_eq] at drifts
      exact ⟨referenced, drifts.1, r, present, drifts.2⟩
  · rfl

end Disarmed

/-! ## A drift (R37, R92) -/

/-- The state in which INDEX_DRIFT has been reported and the reference has fallen. -/
def drifted (d : Nat) (s : State) : State := fallen .indexDrift (reported .indexDrift (BitVec.ofNat 24 d) s)

theorem drifted_eq (d : Nat) (s : State) :
    lowerReference .indexDrift (noteFault .indexDrift (BitVec.ofNat 24 d) s) = drifted d s := by
  rw [lowerReference_fallen, noteFault_reported]
  rfl

theorem driftEdge_alone (d : Nat)
    (other : ∀ e pc, s.session = some e → e.pending = some pc → pc.condition ≠ .atIndex) :
    driftEdge d s = reevaluateAll .reference (drifted d s) := by
  simp only [driftEdge, drifted_eq]
  exact if_neg (not_indexMeets (s := drifted d s) other)

/-- R92: the swap is taken before or after the re-evaluation of the drift. -/
theorem driftEdge_meets (d : Nat) {e : EditSession} {pc : PendingCommit} (session : s.session = some e)
    (pending : e.pending = some pc) (waits : pc.condition = .atIndex) :
    let lowered := (drifted d s).advanceChoices
    driftEdge d s = swapped e pc.tag (reevaluateAll .reference lowered) ∨
    driftEdge d s = reevaluateAll .reference (swapped e pc.tag lowered) := by
  intro lowered
  have later : swapPending (reevaluateAll .reference lowered) = swapped e pc.tag (reevaluateAll .reference lowered) :=
    swapPending_swapped ((reevaluateAll_session lowered .reference).trans session) pending
  have earlier : swapPending lowered = swapped e pc.tag lowered := swapPending_swapped session pending
  have meets : (drifted d s).indexMeets = true := indexMeets_iff.2 ⟨e, pc, session, pending, waits⟩
  rw [← later, ← earlier]
  simp only [driftEdge, drifted_eq, if_pos meets]
  split
  · exact .inl rfl
  · exact .inr rfl

/-! ## The sample -/

theorem sampleIndex_noEdge
    (noEdge : s.counter.resyncIndex = true ∨ s.monitor.signalLoss = true ∨ s.counter.lineIndex = true ∨ index = false) :
    sampleIndex index s = { s with counter := { s.counter with lineIndex := index, resyncIndex := false } } := by
  simp only [sampleIndex]
  split
  · rfl
  next noSkip =>
  split
  · next edge =>
    simp only [Bool.or_eq_true, not_or, Bool.and_eq_true, Bool.not_eq_true'] at noSkip edge
    obtain ⟨synchronised, noLoss⟩ := noSkip
    obtain ⟨low, high⟩ := edge
    obtain resync | loss | line | level := noEdge
    · exact absurd resync synchronised
    · exact absurd loss noLoss
    · cases low.symm.trans line
    · cases high.symm.trans level
  · rfl

theorem sampleIndex_edge (synchronised : s.counter.resyncIndex = false) (noLoss : s.monitor.signalLoss = false)
    (low : s.counter.lineIndex = false) :
    sampleIndex true s = takeIndexEdge { s with counter := { s.counter with lineIndex := true } } := by
  simp only [sampleIndex, synchronised, noLoss, low, Bool.or_self, Bool.false_eq_true, if_false, Bool.not_false,
    Bool.and_self, if_true]
  rw [← synchronised]
  rfl

/-- Settles O17: the sample that is no edge, an edge by the counter's state, the edit unit's part, and the distance. -/
theorem indexEdgeByTheCountersState : Obligations.IndexEdgeByTheCountersState := by
  intro s
  refine ⟨fun a b index service => ?command, fun index => sampleIndex_noEdge, fun synchronised noLoss low => ?edge,
    editAtIndex_none, fun e pc => editAtIndex_swap, fun p r m => circularDistance_eq⟩
  case command => rw [exec_indexEdge, sampleIndexFirst_inService service]
  case edge =>
    intro taken drift
    rw [sampleIndex_edge synchronised noLoss low]
    refine ⟨fun x armed => ?armed, fun disarmed referenced absent => ?records, fun disarmed noDrift noRecord => ?inert,
      fun disarmed drifts r present => ?drifts⟩
    case armed =>
      rw [takeIndexEdge_armed (s := taken) armed, placePosition_eq]
      rfl
    case records => exact takeIndexEdge_records (s := taken) disarmed referenced absent
    case inert => exact takeIndexEdge_inert (s := taken) disarmed noDrift noRecord
    case drifts =>
      intro lowered
      obtain ⟨referenced, watched, r', present', past⟩ := drifts
      obtain rfl : r = r' := Option.some.inj (present.symm.trans present')
      have edge := takeIndexEdge_drifts (s := taken) disarmed referenced present watched past
      refine ⟨fun other => edge.trans (driftEdge_alone _ other), fun e pc session pending waits =>
        ⟨lowered.choices + 1, ?_⟩⟩
      rw [edge]
      exact driftEdge_meets (s := taken) _ session pending waits

end Sys2Proof.Machine
end

section
/-! PROOFS. The period end (R26, R28, R29, R36, R52, R54, R93): when it is due, the order of its three receivers, what each of them
does, and the statement put together from them. -/

namespace Sys2Proof.Machine

variable {s : State}

theorem exec_periodEnd (s : State) : exec .periodEnd s = .next (if s.periodDue then closeSamplePeriod s else s) := rfl

/-- R28: the speed and the rest flag of the period that closes, and the period that begins. -/
theorem closePeriod_eq (m : Monitor) :
    m.closePeriod =
      { m with
        speed := (m.periodCount * 1000).tdiv m.periodLength
        rest := m.periodCount = 0 ∧ m.lossTouched = false
        periodCount := 0
        periodStart := m.periodStart + BitVec.ofNat 32 (m.periodLength * 1000)
        periodLength := m.samplePeriod
        lossTouched := m.signalLoss } := by
  have rest : (decide (m.periodCount = 0) && ! m.lossTouched) = decide (m.periodCount = 0 ∧ m.lossTouched = false) := by
    simp
  rw [Monitor.closePeriod, rest]

/-- R29: each of the six orders names every receiver once. -/
theorem periodReceivers_perm : ∀ n, (periodReceivers n).Perm [.motion, .edit, .overspeed] := by decide

/-- R28, R29: the period closes, and the receivers act in some order. -/
theorem closeSamplePeriod_order (s : State) :
    ∃ (order : List PeriodReceiver) (n : Nat), order.Perm [.motion, .edit, .overspeed] ∧
      closeSamplePeriod s =
        order.foldl PeriodReceiver.act { s with choices := n, monitor := s.monitor.closePeriod } := by
  simp only [closeSamplePeriod]
  split
  · exact ⟨_, s.choices + 1, periodReceivers_perm _, rfl⟩
  · exact ⟨_, s.choices, periodReceivers_perm 0, rfl⟩

/-! ## The receivers -/

/-- R52, R54: MOTION for the tracks whose shift the new speed changes. -/
theorem motionAtPeriodEnd_eq (s : State) :
    motionAtPeriodEnd s =
      reevaluate .motion
        (tracksWhere fun t => (s.monitor.speed * ((s.track t).lead : Int)).tdiv 1000000 ≠ (s.track t).shift)
        { s with
          tracks := Table.build fun t =>
            { s.track t with shift := (s.monitor.speed * ((s.track t).lead : Int)).tdiv 1000000 } } := rfl

theorem restMeets_iff :
    s.restMeets = true ↔
      s.monitor.rest = true ∧ ∃ e pc, s.session = some e ∧ e.pending = some pc ∧ pc.condition = .atRest := by
  unfold State.restMeets State.pendingCommit
  cases s.session with
  | none => simp
  | some e => cases pending : e.pending <;> simp [pending]

/-- R93. -/
theorem editAtPeriodEnd_swap {e : EditSession} {pc : PendingCommit} (session : s.session = some e)
    (pending : e.pending = some pc) (waits : pc.condition = .atRest) (rest : s.monitor.rest = true) :
    editAtPeriodEnd s = swapped e pc.tag s := by
  rw [editAtPeriodEnd, if_pos (restMeets_iff.2 ⟨rest, e, pc, session, pending, waits⟩), swapPending_swapped session pending]

theorem editAtPeriodEnd_none
    (other : s.monitor.rest = false ∨
      ∀ e pc, s.session = some e → e.pending = some pc → pc.condition ≠ .atRest) :
    editAtPeriodEnd s = s := by
  refine if_neg fun meets => ?_
  obtain ⟨rest, e, pc, session, pending, waits⟩ := restMeets_iff.1 meets
  obtain moving | none := other
  · cases rest.symm.trans moving
  · exact none e pc session pending waits

/-- R36: a limit of 0 is none. -/
theorem overLimit_iff (m : Monitor) :
    m.overLimit = true ↔ m.overspeedLimit ≠ 0 ∧ m.overspeedLimit < m.speed.natAbs := by
  rw [Monitor.overLimit, Bool.and_eq_true, decide_eq_true_eq, decide_eq_true_eq, Nat.pos_iff_ne_zero]

theorem judgeOverspeed_within (within : s.monitor.overspeedLimit = 0 ∨ s.monitor.speed.natAbs ≤ s.monitor.overspeedLimit) :
    judgeOverspeed s = { s with monitor := { s.monitor with overspeed := false } } := by
  have notOver : s.monitor.overLimit = false := by
    rw [Bool.eq_false_iff, Ne, overLimit_iff]
    omega
  simp only [judgeOverspeed, Monitor.raisesOverspeed, notOver, Bool.false_and, Bool.false_eq_true, if_false]
  rfl

section Over

variable (exceeds : s.monitor.overLimit = true)
include exceeds

/-- R36: OVERSPEED is raised once while the speed stays over the limit. -/
theorem judgeOverspeed_again (again : s.monitor.overspeed = true) : judgeOverspeed s = s := by
  simp only [judgeOverspeed, Monitor.raisesOverspeed, exceeds, again, Bool.not_true, Bool.and_false, Bool.false_eq_true,
    if_false]
  rw [← again]
  rfl

theorem judgeOverspeed_raises (new : s.monitor.overspeed = false) :
    judgeOverspeed s =
      reported .overspeed (BitVec.ofNat 24 (min s.monitor.speed.natAbs 16777215))
        { s with monitor := { s.monitor with overspeed := true } } := by
  simp only [judgeOverspeed, Monitor.raisesOverspeed, exceeds, new, Bool.not_false, Bool.and_self, if_true,
    noteFault_reported]
  rfl

end Over

/-- Settles O19: the period end by whether it is due, and each receiver by its cases. -/
theorem periodEndGivesSpeedAndRest : Obligations.PeriodEndGivesSpeedAndRest := by
  refine ⟨fun s => ⟨fun early => ?early, fun service passed => ?due⟩, fun x => ⟨motionAtPeriodEnd_eq x,
    fun e pc => editAtPeriodEnd_swap, editAtPeriodEnd_none, judgeOverspeed_within, fun limit exceeds => ?judged⟩⟩
  case early =>
    rw [exec_periodEnd, if_neg]
    rw [periodDue_iff]
    rintro ⟨service, passed⟩
    obtain closed | short := early
    · cases service.symm.trans closed
    · exact absurd short (Nat.not_lt.2 passed)
  case due =>
    obtain ⟨order, n, perm, closes⟩ := closeSamplePeriod_order s
    refine ⟨order, n, perm, ?_⟩
    rw [exec_periodEnd, if_pos ((periodDue_iff s).2 ⟨service, passed⟩), closes, closePeriod_eq]
  case judged =>
    have exceeds := (overLimit_iff x.monitor).2 ⟨limit, exceeds⟩
    exact ⟨judgeOverspeed_again exceeds, judgeOverspeed_raises exceeds⟩

end Sys2Proof.Machine
end

section
/-! PROOFS. CLAIM-AXIS, RELEASE-AXIS, CANCEL-PRESET and PRESET (R11, R12, R16 to R18, R20): the cases of each request, and the two
statements put together from them. -/

namespace Sys2Proof.Machine

variable {s : State} {p q : Port} {payload : List Byte}

/-- A subject whose high half is 0 is the port alone. -/
theorem firstHalf_zero (x : Byte) : 16 * 0 + x = x := BitVec.zero_add x

/-! ## CLAIM-AXIS -/

theorem reqClaimAxis_free (free : s.counter.claim = none) :
    reqClaimAxis p payload s =
      replyOk
        (produce
          { kind := .ownerChanged, subject := 1, detail := 0, extra := bytes24 0xFF (byteOf p.val) 0, direct := none }
          { s with counter := { s.counter with claim := some p } }) := by
  rw [reqClaimAxis, free]
  rfl

theorem reqClaimAxis_holder (mine : s.counter.claim = some p) : reqClaimAxis p payload s = replyOk s := by
  simp only [reqClaimAxis, mine, if_true]

theorem reqClaimAxis_owned (other : q ≠ p) (claimed : s.counter.claim = some q) :
    reqClaimAxis p payload s = refuse s .owned (BitVec.ofNat 16 q.val) := by
  simp only [reqClaimAxis, claimed, if_neg other]
  rfl

/-! ## RELEASE-AXIS and CANCEL-PRESET -/

/-- R12: OWNER_CHANGED of the axis, from the caller to none. -/
theorem freeAxis_eq (p : Port) (cause : Byte) (s : State) :
    freeAxis p cause s =
      produce
        { kind := .ownerChanged, subject := 1, detail := 0, extra := bytes24 (byteOf p.val) 0xFF cause, direct := none }
        { s with counter := { s.counter with claim := none } } := rfl

theorem withdrawPreset_none (cause : Byte) (disarmed : s.counter.armed = none) : withdrawPreset cause s = s := by
  simp only [withdrawPreset, disarmed]

/-- R20: PRESET_WITHDRAWN by its cause, to the port that armed the preset. -/
theorem withdrawPreset_some {cause : Byte} (known : cause = 0 ∨ cause = 1 ∨ cause = 2) {a : Armed}
    (armed : s.counter.armed = some a) :
    withdrawPreset cause s =
      produce
        { kind := .presetWithdrawn, subject := 16 * cause + byteOf a.port.val, detail := BitVec.ofNat 24 a.value,
          extra := s.counter.turns.setWidth 24, direct := some a.port }
        { s with counter := { s.counter with armed := none } } := by
  simp only [withdrawPreset, armed, presetWithdrawnEvent_eq s cause a known]
  rfl

theorem reqReleaseAxis_notOwner (other : s.counter.claim ≠ some p) :
    reqReleaseAxis p payload s = refuse s .notOwner (portWord s.counter.claim) := if_neg other

theorem reqReleaseAxis_holder (mine : s.counter.claim = some p) :
    reqReleaseAxis p payload s = replyOk (freeAxis p 1 (withdrawPreset 1 s)) := if_pos mine

theorem reqCancelPreset_notOwner (other : s.counter.claim ≠ some p) :
    reqCancelPreset p payload s = refuse s .notOwner (portWord s.counter.claim) := if_pos other

theorem reqCancelPreset_none (mine : s.counter.claim = some p) (disarmed : s.counter.armed = none) :
    reqCancelPreset p payload s = refuse s .state 0 := by
  rw [reqCancelPreset, if_neg (not_not_intro mine), if_neg (by simp [disarmed])]

theorem reqCancelPreset_armed {a : Armed} (mine : s.counter.claim = some p) (armed : s.counter.armed = some a) :
    reqCancelPreset p payload s = replyOk (withdrawPreset 0 s) := by
  rw [reqCancelPreset, if_neg (not_not_intro mine), if_pos (by simp [armed])]

/-- Settles O37: each clause is one case of its request, in the state in which it was heard. -/
theorem axisClaimIsTakenAndReleased : Obligations.AxisClaimIsTakenAndReleased := by
  refine ⟨fun s p seq accepted => ⟨fun free => ?free, fun mine => ?holder, fun q other claimed => ?owned⟩,
    fun s p seq => ⟨fun accepted => ⟨fun other => ?releaseNotOwner, fun mine disarmed => ?release,
      fun a mine armed => ?releaseArmed⟩, fun accepted => ⟨fun other => ?cancelNotOwner, fun mine disarmed => ?cancelNone,
      fun a mine armed => ?cancel⟩⟩⟩
  case free => exact completes_of accepted (reqClaimAxis_free (s := heard p s) (payload := []) free) rfl
  case holder => exact completes_of accepted (reqClaimAxis_holder (s := heard p s) (payload := []) mine) rfl
  case owned => exact refuses_of accepted (reqClaimAxis_owned (s := heard p s) (payload := []) other claimed) rfl
  case releaseNotOwner => exact refuses_of accepted (reqReleaseAxis_notOwner (s := heard p s) (payload := []) other) rfl
  case release =>
    have reply := reqReleaseAxis_holder (s := heard p s) (payload := []) mine
    rw [withdrawPreset_none (s := heard p s) 1 disarmed, freeAxis_eq] at reply
    exact completes_of accepted reply rfl
  case releaseArmed =>
    have reply := reqReleaseAxis_holder (s := heard p s) (payload := []) mine
    rw [withdrawPreset_some (s := heard p s) (.inr (.inl rfl)) armed, freeAxis_eq] at reply
    exact completes_of accepted reply rfl
  case cancelNotOwner => exact refuses_of accepted (reqCancelPreset_notOwner (s := heard p s) (payload := []) other) rfl
  case cancelNone => exact refuses_of accepted (reqCancelPreset_none (s := heard p s) (payload := []) mine disarmed) rfl
  case cancel =>
    have reply := reqCancelPreset_armed (s := heard p s) (payload := []) mine armed
    rw [withdrawPreset_some (s := heard p s) (.inl rfl) armed, firstHalf_zero] at reply
    exact completes_of accepted reply rfl

/-! ## PRESET -/

theorem presetMode_isSome (n : Nat) : (PresetMode.ofCode n).isSome = decide (n ≤ 1) := by
  match n with
  | 0 | 1 => rfl
  | n + 2 => simp [PresetMode.ofCode]

/-- R16: the ranges of the two parameters. -/
theorem presetInRange_eq (payload : List Byte) (m : Nat) :
    [decide (u24 payload 0 < m), (PresetMode.ofCode (u8 payload 3)).isSome] =
      [decide (u24 payload 0 < m), decide (u8 payload 3 ≤ 1)] := by rw [presetMode_isSome]

theorem reqPreset_value (past : s.counter.modulus ≤ u24 payload 0) : reqPreset p payload s = refuseRange s 0 := by
  have bad : firstBad [decide (u24 payload 0 < s.counter.modulus), decide (u8 payload 3 ≤ 1)] = some 0 :=
    firstBad_some (by simpa using past) (by simp)
  rw [reqPreset, presetInRange_eq, bad]

theorem reqPreset_mode (onRing : u24 payload 0 < s.counter.modulus) (unknown : 1 < u8 payload 3) :
    reqPreset p payload s = refuseRange s 1 := by
  have bad : firstBad [decide (u24 payload 0 < s.counter.modulus), decide (u8 payload 3 ≤ 1)] = some 1 :=
    firstBad_some (by simpa using unknown) (by simp [onRing])
  rw [reqPreset, presetInRange_eq, bad]

section InRange

variable (onRing : u24 payload 0 < s.counter.modulus) (known : u8 payload 3 ≤ 1)
include onRing known

theorem preset_noneBad :
    firstBad [decide (u24 payload 0 < s.counter.modulus), (PresetMode.ofCode (u8 payload 3)).isSome] = none := by
  rw [presetInRange_eq, decide_eq_true onRing, decide_eq_true known]
  rfl

theorem reqPreset_notOwner (other : s.counter.claim ≠ some p) :
    reqPreset p payload s = refuse s .notOwner (portWord s.counter.claim) := by
  simp only [reqPreset, preset_noneBad onRing known, if_pos other]
  rfl

theorem reqPreset_loss (mine : s.counter.claim = some p) (loss : s.monitor.signalLoss = true) :
    reqPreset p payload s = refuse s .state 0 := by
  simp only [reqPreset, preset_noneBad onRing known, if_neg (not_not_intro mine), if_pos loss]

theorem reqPreset_admitted (mine : s.counter.claim = some p) (noLoss : s.monitor.signalLoss = false) :
    reqPreset p payload s =
      if PresetMode.ofCode (u8 payload 3) = some .now then replyOk (placePosition .now (u24 payload 0) p none s)
      else replyPending (s.setCounter { s.counter with armed := some { value := u24 payload 0, port := p } }) := by
  simp only [reqPreset, preset_noneBad onRing known, if_neg (not_not_intro mine), noLoss, Bool.false_eq_true, if_false]

end InRange

/-- Settles O38: each clause is one case of the request, in the order of its checks. -/
theorem presetPlacesOrArms : Obligations.PresetPlacesOrArms := by
  intro s p seq payload accepted v mode
  refine ⟨fun past => ?value, fun onRing unknown => ?mode, fun onRing known other => ?notOwner,
    fun onRing known mine loss => ?loss, fun onRing now mine noLoss => ?now, fun onRing atIndex mine noLoss => ?atIndex⟩
  case value => exact refuses_of accepted (reqPreset_value (s := heard p s) past) rfl
  case mode => exact refuses_of accepted (reqPreset_mode (s := heard p s) onRing unknown) rfl
  case notOwner => exact refuses_of accepted (reqPreset_notOwner (s := heard p s) onRing known other) rfl
  case loss => exact refuses_of accepted (reqPreset_loss (s := heard p s) onRing known mine loss) rfl
  case now =>
    intro placed
    have code : PresetMode.ofCode (u8 payload 3) = some .now := congrArg PresetMode.ofCode now
    have known : u8 payload 3 ≤ 1 := (Nat.le_of_eq now).trans (Nat.zero_le 1)
    have reply := reqPreset_admitted (s := heard p s) onRing known mine noLoss
    rw [if_pos code, placePosition_eq, PresetMode.code, firstHalf_zero] at reply
    exact completes_of accepted reply rfl
  case atIndex =>
    have code : PresetMode.ofCode (u8 payload 3) = some .atIndex := congrArg PresetMode.ofCode atIndex
    have reply := reqPreset_admitted (s := heard p s) onRing (Nat.le_of_eq atIndex) mine noLoss
    rw [if_neg (by rw [code]; decide)] at reply
    exact completes_of accepted reply rfl

end Sys2Proof.Machine
end

section
/-! PROOFS. SET-AXIS (R22 to R24, R30, R52): the ranges and values of its payload, the cases of the request, what a change of
geometry leaves, and the two statements put together from them. -/

namespace Sys2Proof.Machine

variable {s : State} {p : Port} {payload : List Byte} {x : AxisConfig}

/-! ## The payload (R22, R24) -/

/-- R22: the ranges of the six parameters; the drift tolerance is a byte and always in range. -/
theorem axisInRange_eq (payload : List Byte) :
    axisInRange payload =
      [decide (2 ≤ u32 payload 0 ∧ u32 payload 0 ≤ 16777216), decide (u8 payload 4 ≤ 4), decide (u8 payload 5 ≤ 1),
       decide (1 ≤ u16 payload 6 ∧ u16 payload 6 ≤ 1000), decide (u24 payload 8 ≤ 16000000), true] := by
  have byte : u8 payload 11 ≤ 255 := Nat.le_of_lt_succ (BitVec.isLt _)
  simp only [axisInRange, inputMode_isSome, boolOfCode_isSome, Bool.decide_and, byte, decide_true]

theorem inputMode_ofCode {n : Nat} (inRange : n ≤ 4) :
    (InputMode.ofCode n).getD .quadX4 =
      if n = 0 then .pulseDir else if n = 1 then .upDown else if n = 2 then .quadX1 else if n = 3 then .quadX2
      else .quadX4 := by
  match n, inRange with
  | 0, _ | 1, _ | 2, _ | 3, _ | 4, _ => rfl

/-- The values that the fields of a payload in range carry. -/
theorem axisConfig_eq (inputMode : u8 payload 4 ≤ 4) (invert : u8 payload 5 ≤ 1) :
    axisConfig payload =
      { modulus := u32 payload 0
        inputMode :=
          if u8 payload 4 = 0 then .pulseDir else if u8 payload 4 = 1 then .upDown
          else if u8 payload 4 = 2 then .quadX1 else if u8 payload 4 = 3 then .quadX2 else .quadX4
        invert := u8 payload 5 = 1
        samplePeriod := u16 payload 6
        overspeedLimit := u24 payload 8
        driftTolerance := u8 payload 11 } := by
  rw [axisConfig, inputMode_ofCode inputMode, boolOfCode_getD invert]

/-! ## The cases of the request (R22, R23) -/

theorem reaches_iff (b : Bank) (m : Nat) : b.reaches m = true ↔ ∃ t, ∃ w ∈ b.list t, m ≤ w.on ∨ m ≤ w.off := by
  simp [Bank.reaches]

theorem reaches_false {b : Bank} {m : Nat} (inside : ¬ ∃ t, ∃ w ∈ b.list t, m ≤ w.on ∨ m ≤ w.off) :
    b.reaches m = false := Bool.eq_false_iff.2 (mt (reaches_iff b m).1 inside)

theorem sameGeometry_iff (x : AxisConfig) (c : Counter) :
    x.sameGeometry c = true ↔ x.modulus = c.modulus ∧ x.inputMode = c.inputMode ∧ x.invert = c.invert := by
  simp [AxisConfig.sameGeometry, and_assoc]

theorem reqSetAxis_notOwner (other : s.counter.claim ≠ some p) :
    reqSetAxis p payload s = refuse s .notOwner (portWord s.counter.claim) := if_pos other

section Owner

variable (mine : s.counter.claim = some p)
include mine

theorem reqSetAxis_outOfRange {i : Nat} (bad : firstBad (axisInRange payload) = some i) :
    reqSetAxis p payload s = refuseRange s i := by
  rw [reqSetAxis, if_neg (not_not_intro mine), bad]

variable (inRange : firstBad (axisInRange payload) = none)
include inRange

theorem reqSetAxis_session (present : s.session ≠ none) : reqSetAxis p payload s = refuse s .inUse 1 := by
  simp only [reqSetAxis, if_neg (not_not_intro mine), inRange, if_pos (Option.isSome_iff_ne_none.2 present)]

variable (absent : s.session = none)
include absent

theorem reqSetAxis_reaches (past : s.active.reaches (axisConfig payload).modulus = true) :
    reqSetAxis p payload s = refuse s .inUse 2 := by
  simp only [reqSetAxis, if_neg (not_not_intro mine), inRange, absent, Option.isSome_none, Bool.false_eq_true, if_false,
    if_pos past]

theorem reqSetAxis_admitted (inside : s.active.reaches (axisConfig payload).modulus = false) :
    reqSetAxis p payload s =
      if (axisConfig payload).sameGeometry s.counter then replyOk (setLimits (axisConfig payload) s)
      else replyOk (changeGeometry (axisConfig payload) s) := by
  simp only [reqSetAxis, if_neg (not_not_intro mine), inRange, absent, inside, Option.isSome_none, Bool.false_eq_true,
    if_false]

end Owner

/-- Settles O39: the ranges are those of the model's list, and the clauses are the request's cases in their order. -/
theorem setAxisChecksAndSetsLimits : Obligations.SetAxisChecksAndSetsLimits := by
  intro s p seq payload accepted inRange x
  have spec (i : Nat) : inRange i ↔ (axisInRange payload)[i]? ≠ some false := by
    rw [axisInRange_eq]
    match i with
    | 0 | 1 | 2 | 3 | 4 | 5 => simp [inRange]
    | i + 6 => simp [inRange]
  obtain ⟨lowestBad, noneBad⟩ := firstBad_of_spec spec
  refine ⟨fun other => ?notOwner, fun mine => ⟨fun i bad low => ?range, fun all => ?_⟩⟩
  case notOwner => exact refuses_of accepted (reqSetAxis_notOwner (s := heard p s) other) rfl
  case range => exact refuses_of accepted (reqSetAxis_outOfRange (s := heard p s) mine (lowestBad i bad low)) rfl
  have noBad := noneBad all
  have params : axisConfig payload = x := axisConfig_eq (all 1) (all 2)
  refine ⟨fun present => ?session, fun absent => ⟨fun past => ?reaches, fun inside modulus inputMode invert => ?limits⟩⟩
  case session => exact refuses_of accepted (reqSetAxis_session (s := heard p s) mine noBad present) rfl
  case reaches =>
    have past' : s.active.reaches (axisConfig payload).modulus = true := (reaches_iff _ _).2 (params ▸ past)
    exact refuses_of accepted (reqSetAxis_reaches (s := heard p s) mine noBad absent past') rfl
  case limits =>
    have reply := reqSetAxis_admitted (s := heard p s) mine noBad absent (reaches_false (params ▸ inside))
    rw [params, if_pos ((sameGeometry_iff x (heard p s).counter).2 ⟨modulus, inputMode, invert⟩)] at reply
    exact completes_of accepted reply rfl

/-! ## A change of geometry (R23, R30, R52) -/

/-- The counter and the estimator start again under the new geometry. -/
def restarted (x : AxisConfig) (s : State) : State :=
  { s with
    counter :=
      { s.counter with
        p := 0, turns := 0, modulus := x.modulus, inputMode := x.inputMode, invert := x.invert, lastDir := .up,
        ref := .unreferenced, r := none, armed := none, resyncCount := true }
    monitor :=
      { s.monitor with
        samplePeriod := x.samplePeriod, overspeedLimit := x.overspeedLimit, driftTolerance := x.driftTolerance,
        periodLength := x.samplePeriod, periodStart := s.time, periodCount := 0, speed := 0, rest := true,
        overspeed := false, lossTouched := s.monitor.signalLoss } }

/-- The restart, with PRESET_WITHDRAWN of the preset that was armed. -/
def restartedWithdrawn (x : AxisConfig) (s : State) : State :=
  match s.counter.armed with
  | none => restarted x s
  | some a =>
    produce
      { kind := .presetWithdrawn, subject := 32 + byteOf a.port.val, detail := BitVec.ofNat 24 a.value, extra := 0,
        direct := some a.port } (restarted x s)

/-- The restart with both its events. -/
def restartedReported (x : AxisConfig) (s : State) : State :=
  if s.counter.ref = .unreferenced then restartedWithdrawn x s
  else produce { kind := .referenceChanged, subject := 0, detail := 5, extra := 0, direct := none } (restartedWithdrawn x s)

theorem withdrawPreset_placeGeometry (x : AxisConfig) (s : State) :
    withdrawPreset 2 (placeGeometry x s) = restartedWithdrawn x s := by
  unfold restartedWithdrawn
  split
  · next disarmed =>
    rw [withdrawPreset_none (s := placeGeometry x s) 2 disarmed, restarted, ← disarmed]
    rfl
  · next a armed =>
    rw [withdrawPreset_some (s := placeGeometry x s) (.inr (.inr rfl)) armed]
    rfl

@[simp] theorem restartedWithdrawn_turns (x : AxisConfig) (s : State) : (restartedWithdrawn x s).counter.turns = 0 := by
  unfold restartedWithdrawn
  split <;> rfl

@[simp] theorem restartedReported_speed (x : AxisConfig) (s : State) : (restartedReported x s).monitor.speed = 0 := by
  unfold restartedReported restartedWithdrawn
  split <;> split <;> rfl

@[simp] theorem restartedReported_tracks (x : AxisConfig) (s : State) : (restartedReported x s).tracks = s.tracks := by
  unfold restartedReported restartedWithdrawn
  split <;> split <;> rfl

/-- REFERENCE_CHANGED to UNREFERENCED, cause GEOMETRY, with the turns that the restart has placed. -/
theorem referenceChanged_geometry (turns : s.counter.turns = 0) :
    referenceChangedEvent s .unreferenced 5 =
      { kind := .referenceChanged, subject := 0, detail := 5, extra := 0, direct := none } := by
  rw [referenceChangedEvent, State.turns24, turns]
  rfl

/-- R52: at speed 0 every lead shift is 0. -/
theorem recomputeShifts_atRest (rest : s.monitor.speed = 0) :
    recomputeShifts s = { s with tracks := Table.build fun i => { s.track i with shift := 0 } } := by
  simp only [recomputeShifts, rest, leadShift, Int.zero_mul, Int.zero_tdiv]
  rfl

theorem changeGeometry_eq (x : AxisConfig) (s : State) :
    changeGeometry x s =
      reevaluateAll .reference
        { restartedReported x s with tracks := Table.build fun i => { s.track i with shift := 0 } } := by
  have reported :
      produceIf (s.counter.ref ≠ .unreferenced) (referenceChangedEvent (restartedWithdrawn x s) .unreferenced 5)
        (restartedWithdrawn x s) = restartedReported x s := by
    rw [referenceChanged_geometry (restartedWithdrawn_turns x s)]
    by_cases lost : s.counter.ref = .unreferenced <;> simp [produceIf, restartedReported, lost]
  simp only [changeGeometry, withdrawPreset_placeGeometry, reported,
    recomputeShifts_atRest (restartedReported_speed x s), State.track, restartedReported_tracks]

/-- Settles O40: the request's last case, and what the change of geometry leaves. -/
theorem changeOfGeometryRestartsTheAxis : Obligations.ChangeOfGeometryRestartsTheAxis := by
  intro s p seq payload accepted x mine low high inputMode invert shortest longest limit absent inside changed
  have params : axisConfig payload = x := axisConfig_eq inputMode invert
  have noBad : firstBad (axisInRange payload) = none := by
    rw [axisInRange_eq, decide_eq_true ⟨low, high⟩, decide_eq_true inputMode, decide_eq_true invert,
      decide_eq_true ⟨shortest, longest⟩, decide_eq_true limit]
    rfl
  have reply := reqSetAxis_admitted (s := heard p s) mine noBad absent (reaches_false (params ▸ inside))
  rw [params, if_neg (mt (sameGeometry_iff x (heard p s).counter).1 changed), changeGeometry_eq] at reply
  exact completes_of accepted reply rfl

end Sys2Proof.Machine
end
